-- ==== Sys2Proof/Word.lean ====
section
/-! DEFINITION. The words of the block: positions, sampled words, levels, and the closed sets of names
(phases, stop causes, the channels a cursor can belong to). -/

namespace Sys2Proof

/-- A sample position, `POS_W = 64` bits unsigned (00_scope R8, R10). `SEQ` and the estimate are as wide. -/
abbrev Pos := BitVec 64

/-- A decoded word, `WORD_W = 16` bits (00_scope R8). -/
abbrev Word := BitVec 16

/-- A logic level: `true` is 1, `false` is 0 (00_scope R10). -/
abbrev Level := Bool

/-- The sixteen values of `PHASE` (10_state R28, 30_encoding R84). -/
inductive Phase where
  | idle | eSeek | eEdge | eProbe
  | qInit | qAlign | qEdge | qRace | qDeassert | qReassert
  | dHead | dAdvance | dProbe
  | done | cancelled | stopped
  deriving DecidableEq, Repr

/-- The reasons a run stops in `STOPPED` (60_exceptions R200). -/
inductive Cause where
  | cfgReservedBits | cfgReservedMode | cfgCsDual | cfgNoData | cfgTooManyData | cfgCsBinding
  | nonmonotonic | posOverflow
  deriving DecidableEq, Repr

/-- A channel binding: the clock, the chip-select, or configured data channel `i` (00_scope R13). -/
inductive Chan where
  | clk | cs | data (i : Nat)
  deriving DecidableEq, Repr

end Sys2Proof
end

