-- ==== Sys2Proof/Syntax.lean ====
section
/-! DEFINITION. The operations of the block: one constructor for each row of the opcode table. -/

namespace Sys2Proof

/-- The rows of the opcode table: configuration words (30_encoding R81), operations selected by the
phase register (R84), and the shared operations, which have no code word (R83). -/
inductive Instr where
  /-- `CFG = 0x00000000`: Edge-Gated Decoder, rising-active. -/
  | cfgEdgeRise
  /-- `CFG = 0x00000001`: Edge-Gated Decoder, falling-active. -/
  | cfgEdgeFall
  /-- `CFG = 0x00000002`: Dual-Edge Decoder. -/
  | cfgDualEdge
  /-- `CFG = 0x00000003`: reserved mode, refused by the block. -/
  | cfgReservedMode3
  /-- `CFG = 0x00000004`: Chip-Select-Gated Decoder, rising-active. -/
  | cfgCsRise
  /-- `CFG = 0x00000005`: Chip-Select-Gated Decoder, falling-active. -/
  | cfgCsFall
  /-- `CFG = 0x00000006`: chip-select with dual-edge, refused by the block. -/
  | cfgReservedCsDual
  /-- `CFG = 0x00000007`: reserved mode with chip-select, refused by the block. -/
  | cfgReservedCsMode3
  /-- Any word with a bit of `CFG[31:3]` set: `resv = CFG[31:3]`, `low = CFG[2:0]`. -/
  | cfgReservedBits (resv : BitVec 29) (low : BitVec 3)
  /-- `PHASE = 0x1`. -/
  | phESeek
  /-- `PHASE = 0x2`. -/
  | phEEdge
  /-- `PHASE = 0x3`. -/
  | phEProbe
  /-- `PHASE = 0x4`. -/
  | phQInit
  /-- `PHASE = 0x5`. -/
  | phQAlign
  /-- `PHASE = 0x6`. -/
  | phQEdge
  /-- `PHASE = 0x7`. -/
  | phQRace
  /-- `PHASE = 0x8`. -/
  | phQDeassert
  /-- `PHASE = 0x9`. -/
  | phQReassert
  /-- `PHASE = 0xA`. -/
  | phDHead
  /-- `PHASE = 0xB`. -/
  | phDAdvance
  /-- `PHASE = 0xC`. -/
  | phDProbe
  /-- `PHASE = 0x0`: the start step on the configuration word the host presents. -/
  | phIdleStart
  /-- `PHASE = 0xD`. -/
  | phDone
  /-- `PHASE = 0xE`. -/
  | phCancelled
  /-- `PHASE = 0xF`. -/
  | phStopped
  /-- `sample_word(p)`. -/
  | opSampleWord (p : Pos)
  /-- `estimate_width()`. -/
  | opEstimateWidth
  /-- `commit(value, start, end)`. -/
  | opCommit (value : Word) (startPos endPos : Pos)
  /-- `report_progress(pos)`. -/
  | opReportProgress (p : Pos)
  /-- `mark_arrow(p, lvl)`. -/
  | opMarkArrow (p : Pos) (lvl : Level)
  /-- `finish_real(w, S)`. -/
  | opFinishReal (w : Word) (startPos : Pos)
  /-- `close_and_open(E)`. -/
  | opCloseAndOpen (edge : Pos)
  /-- `seek_active()`. -/
  | opSeekActive
  deriving DecidableEq, Repr

end Sys2Proof
end

