-- ==== Sys2Proof/WellFormed.lean ====
section
/-! DEFINITION. Which operations are well formed. -/

namespace Sys2Proof

/-- Checks on an operation's operands: the reserved-bits row needs a reserved bit set (30_encoding
R82), a commit needs `start <= end` (its precondition, 41_frame_emitter R111), and the position given
to `close_and_open` is a clock edge, so at least 1 (44_dual_edge_decoder R172, 20_memory R50). These
are of the syntax; `exec` runs an operation that is not well formed too (log 28). -/
def Instr.wf : Instr → Bool
  | .cfgReservedBits resv _ => resv != 0#29
  | .opCommit _ startPos endPos => startPos.toNat ≤ endPos.toNat
  | .opCloseAndOpen edge => 1 ≤ edge.toNat
  | .cfgEdgeRise | .cfgEdgeFall | .cfgDualEdge | .cfgReservedMode3 | .cfgCsRise | .cfgCsFall
  | .cfgReservedCsDual | .cfgReservedCsMode3 => true
  | .phESeek | .phEEdge | .phEProbe | .phQInit | .phQAlign | .phQEdge | .phQRace | .phQDeassert
  | .phQReassert | .phDHead | .phDAdvance | .phDProbe | .phIdleStart | .phDone | .phCancelled
  | .phStopped => true
  | .opSampleWord _ | .opEstimateWidth | .opReportProgress _ | .opMarkArrow _ _ | .opFinishReal _ _
  | .opSeekActive => true

end Sys2Proof
end

