-- ==== Sys2Proof/Decode.lean ====
section
/-! DEFINITION. Decoding and encoding of the configuration word (30_encoding R80 to R82), of the phase
register (R84) and of the stop causes (60_exceptions R200). -/

namespace Sys2Proof

/-- The variant row of a configuration word (30_encoding R81, R82): `CFG[31:3]` first, then
`CFG[2:0]`. Every word has a row. -/
def decodeCfg (w : BitVec 32) : Instr :=
  let resv : BitVec 29 := w.extractLsb' 3 29
  let low : BitVec 3 := w.extractLsb' 0 3
  if resv = 0#29 then
    match low.toNat with
    | 0 => .cfgEdgeRise
    | 1 => .cfgEdgeFall
    | 2 => .cfgDualEdge
    | 3 => .cfgReservedMode3
    | 4 => .cfgCsRise
    | 5 => .cfgCsFall
    | 6 => .cfgReservedCsDual
    | _ => .cfgReservedCsMode3
  else .cfgReservedBits resv low

/-- The operation a phase code selects (30_encoding R84). `PHASE` has no reserved value. -/
def decodePhase (w : BitVec 4) : Instr :=
  match w.toNat with
  | 0 => .phIdleStart
  | 1 => .phESeek
  | 2 => .phEEdge
  | 3 => .phEProbe
  | 4 => .phQInit
  | 5 => .phQAlign
  | 6 => .phQEdge
  | 7 => .phQRace
  | 8 => .phQDeassert
  | 9 => .phQReassert
  | 10 => .phDHead
  | 11 => .phDAdvance
  | 12 => .phDProbe
  | 13 => .phDone
  | 14 => .phCancelled
  | _ => .phStopped

/-- The 4-bit code of a phase (30_encoding R84). -/
def Phase.code : Phase → BitVec 4
  | .idle => 0x0#4
  | .eSeek => 0x1#4
  | .eEdge => 0x2#4
  | .eProbe => 0x3#4
  | .qInit => 0x4#4
  | .qAlign => 0x5#4
  | .qEdge => 0x6#4
  | .qRace => 0x7#4
  | .qDeassert => 0x8#4
  | .qReassert => 0x9#4
  | .dHead => 0xA#4
  | .dAdvance => 0xB#4
  | .dProbe => 0xC#4
  | .done => 0xD#4
  | .cancelled => 0xE#4
  | .stopped => 0xF#4

/-- The phase of a 4-bit code (30_encoding R84). -/
def Phase.ofCode (w : BitVec 4) : Phase :=
  match w.toNat with
  | 0 => .idle
  | 1 => .eSeek
  | 2 => .eEdge
  | 3 => .eProbe
  | 4 => .qInit
  | 5 => .qAlign
  | 6 => .qEdge
  | 7 => .qRace
  | 8 => .qDeassert
  | 9 => .qReassert
  | 10 => .dHead
  | 11 => .dAdvance
  | 12 => .dProbe
  | 13 => .done
  | 14 => .cancelled
  | _ => .stopped

/-- The phases a run never leaves (60_exceptions R210). -/
def Phase.final (p : Phase) : Bool :=
  match p with
  | .done | .cancelled | .stopped => true
  | .idle | .eSeek | .eEdge | .eProbe | .qInit | .qAlign | .qEdge | .qRace | .qDeassert | .qReassert
  | .dHead | .dAdvance | .dProbe => false

/-- Whether a configuration word is one of the variants the opcode table gives a phase (30_encoding R84). -/
def Phase.inVariant (p : Phase) (w : BitVec 32) : Bool :=
  match p with
  | .eSeek | .eEdge | .eProbe => w == 0x0#32 || w == 0x1#32
  | .qInit | .qAlign | .qEdge | .qRace | .qDeassert | .qReassert => w == 0x4#32 || w == 0x5#32
  | .dHead | .dAdvance | .dProbe => w == 0x2#32
  | .idle | .done | .cancelled | .stopped => true

/-- The lowest configuration word of a phase's variants. -/
def Phase.leastVariant (p : Phase) : BitVec 32 :=
  match p with
  | .qInit | .qAlign | .qEdge | .qRace | .qDeassert | .qReassert => 0x4#32
  | .dHead | .dAdvance | .dProbe => 0x2#32
  | .eSeek | .eEdge | .eProbe | .idle | .done | .cancelled | .stopped => 0x0#32

/-- The 8-bit code a stop leaves in `CAUSE` (60_exceptions R200). -/
def Cause.code : Cause → BitVec 8
  | .cfgReservedBits => 0x01#8
  | .cfgReservedMode => 0x02#8
  | .cfgCsDual => 0x03#8
  | .cfgNoData => 0x04#8
  | .cfgTooManyData => 0x05#8
  | .cfgCsBinding => 0x06#8
  | .nonmonotonic => 0x10#8
  | .posOverflow => 0x11#8

/-- `CFG[1:0]`, the clock-edge mode (30_encoding R80). -/
def cfgMode (w : BitVec 32) : BitVec 2 := w.extractLsb' 0 2

/-- `CFG[2]`, chip-select gating present (30_encoding R80). -/
def cfgCsEn (w : BitVec 32) : Bool := w.getLsbD 2

/-- `CFG[31:3]`, reserved (30_encoding R80). -/
def cfgReserved (w : BitVec 32) : BitVec 29 := w.extractLsb' 3 29

/-- `ACT`, the clock level that follows an active edge: 1 for rising-active, 0 for falling-active,
none in the other modes (10_state R23). -/
def cfgAct (w : BitVec 32) : Option Level :=
  match (cfgMode w).toNat with
  | 0 => some true
  | 1 => some false
  | _ => none

/-- The first phase of an accepted configuration (30_encoding R81, 70_reset_and_hazards R221). -/
def cfgFirstPhase (w : BitVec 32) : Phase :=
  if cfgCsEn w then .qInit else if cfgMode w = 2#2 then .dHead else .eSeek

/-- Where an operation's code stands: in the configuration word or in the phase register. -/
inductive Code where
  | cfg (w : BitVec 32)
  | phase (w : BitVec 4)
  deriving DecidableEq, Repr

/-- The operation of a code. -/
def decode : Code → Instr
  | .cfg w => decodeCfg w
  | .phase w => decodePhase w

/-- The code of an operation; the shared operations have none (30_encoding R83). -/
def encode : Instr → Option Code
  | .cfgEdgeRise => some (.cfg 0x00000000#32)
  | .cfgEdgeFall => some (.cfg 0x00000001#32)
  | .cfgDualEdge => some (.cfg 0x00000002#32)
  | .cfgReservedMode3 => some (.cfg 0x00000003#32)
  | .cfgCsRise => some (.cfg 0x00000004#32)
  | .cfgCsFall => some (.cfg 0x00000005#32)
  | .cfgReservedCsDual => some (.cfg 0x00000006#32)
  | .cfgReservedCsMode3 => some (.cfg 0x00000007#32)
  | .cfgReservedBits resv low => some (.cfg (resv ++ low))
  | .phIdleStart => some (.phase 0x0#4)
  | .phESeek => some (.phase 0x1#4)
  | .phEEdge => some (.phase 0x2#4)
  | .phEProbe => some (.phase 0x3#4)
  | .phQInit => some (.phase 0x4#4)
  | .phQAlign => some (.phase 0x5#4)
  | .phQEdge => some (.phase 0x6#4)
  | .phQRace => some (.phase 0x7#4)
  | .phQDeassert => some (.phase 0x8#4)
  | .phQReassert => some (.phase 0x9#4)
  | .phDHead => some (.phase 0xA#4)
  | .phDAdvance => some (.phase 0xB#4)
  | .phDProbe => some (.phase 0xC#4)
  | .phDone => some (.phase 0xD#4)
  | .phCancelled => some (.phase 0xE#4)
  | .phStopped => some (.phase 0xF#4)
  | .opSampleWord _ | .opEstimateWidth | .opCommit _ _ _ | .opReportProgress _ | .opMarkArrow _ _
  | .opFinishReal _ _ | .opCloseAndOpen _ | .opSeekActive => none

/-- The code a table row's word stands for: a 4-bit row (one whole byte) is a phase code, a 32-bit row
is a configuration word; any other length, or a value too wide for its row, is no code (log 14). -/
def codeOfTableWord (nbits w : Nat) : Option Code :=
  if (nbits = 4 ∨ nbits = 8) ∧ w < 16 then some (.phase (BitVec.ofNat 4 w))
  else if nbits = 32 ∧ w < 2 ^ 32 then some (.cfg (BitVec.ofNat 32 w))
  else none

/-- The operation the decoder reads from a table row's word. -/
def decodeTableWord (nbits w : Nat) : Option Instr :=
  (codeOfTableWord nbits w).map decode

end Sys2Proof
end

