-- ==== Sys2Proof/Config.lean ====
section
/-! DEFINITION. The implementation parameters (00_scope R8, R9), fixed for a run. -/

namespace Sys2Proof

/-- The parameters that 00_scope R8 and 92_eei_decisions P1 ask to be configuration fields, with the
values of this hardware as defaults. `WORD_W`, `POS_W` and `SEQ_W` are the widths of the types (log 15). -/
structure Config where
  /-- `EST_SEED`: the estimated width when no frame has been emitted. -/
  estSeed : Nat := 10
  /-- `EST_FLOOR`: the least estimated width. -/
  estFloor : Nat := 3
  /-- `EST_DIV`: the estimate is the previous width divided by this, rounded. -/
  estDiv : Nat := 10
  /-- `EST_CLAMP`: the least distance from a start to a provisional end. -/
  estClamp : Nat := 1
  /-- `MAX_DATA`: the most configured data channels. -/
  maxData : Nat := 16
  deriving DecidableEq, Repr

/-- The parameters are usable: every width fits 64 bits, the divisor is not 0, no estimate is below 1
or below the clamp's distance plus one (so the clamp never binds, 41_frame_emitter R115), and
`MAX_DATA <= WORD_W` (92_eei_decisions D2). -/
abbrev Config.wf (c : Config) : Prop :=
  c.estClamp < c.estSeed ∧ c.estSeed < 2 ^ 64 ∧ c.estClamp < c.estFloor ∧ c.estFloor < 2 ^ 64 ∧
    1 ≤ c.estDiv ∧ 1 ≤ c.estClamp ∧ 1 ≤ c.maxData ∧ c.maxData ≤ 16

end Sys2Proof
end

