-- ==== Sys2Proof/Machine/State.lean ====
section
/-! DEFINITION. The state of the block, its environment and its reset (10_state, 20_memory section 1,
70_reset_and_hazards R220). Plain data. -/

namespace Sys2Proof.Machine

/-- The trace of one channel (20_memory R50): the level before the first transition, and the
transition positions, strictly rising and at least 1. This list is the block's input memory in its
one canonical form (`Trace.wf`). -/
structure Trace where
  initial : Level
  edges : List Pos
  deriving DecidableEq, Repr

/-- A binding's cursor: the trace it reads and its position `POS[c]` (10_state R25, R27). -/
structure Cursor where
  trace : Trace
  pos : Pos
  deriving DecidableEq, Repr

/-- One entry of the channel mapping: a bound data channel's cursor and its mask `M[i]` (10_state R26). -/
structure Line where
  cursor : Cursor
  mask : Word
  deriving DecidableEq, Repr

/-- What the host presents for the next start step: `CFG` and the channel bindings, each data binding
a trace or "unused" (10_state R22, R24; 60_exceptions R213). -/
structure Inputs where
  cfg : BitVec 32
  data : List (Option Trace)
  clk : Trace
  cs : Option Trace
  deriving DecidableEq, Repr

/-- The producer (20_memory R52): `B`, the buffered length, and `ENDED`, the end-of-capture flag. -/
structure Producer where
  buffered : Pos
  ended : Bool
  deriving DecidableEq, Repr

/-- A frame record (10_state R38, 30_encoding R88); both positions are inclusive. -/
structure Frame where
  value : Word
  startPos : Pos
  endPos : Pos
  seq : Option (BitVec 64)
  deriving DecidableEq, Repr

/-- The kinds of marker (10_state R39). -/
inductive MarkerKind where
  | arrowUp | arrowDown | dot
  deriving DecidableEq, Repr

/-- A marker record (10_state R39, 30_encoding R89). -/
structure Marker where
  kind : MarkerKind
  channel : Chan
  pos : Pos
  deriving DecidableEq, Repr

/-- A record of the output stream (30_encoding R86); a progress record is its position (R90). -/
inductive Record where
  | frame (f : Frame)
  | marker (m : Marker)
  | progress (p : Pos)
  deriving DecidableEq, Repr

/-- The moves of the environment (60_exceptions R213, 20_memory R53). -/
inductive HostMove where
  /-- The producer buffers `n` more samples of every channel. -/
  | append (n : Nat)
  /-- The producer ends the capture. -/
  | endCapture
  /-- The host cancels the run (60_exceptions R208). -/
  | cancel
  /-- The host presents a configuration and bindings for the next start step (R230). -/
  | present (i : Inputs)
  /-- The host begins a new run after a stop, the producer then at `p` (R210, R220). -/
  | newRun (p : Producer)
  deriving DecidableEq, Repr

/-- Whose turn it is: the block's next step, or a move of the environment (log 4). -/
inductive Turn where
  | block
  | host (m : HostMove)
  deriving DecidableEq, Repr

/-- The ways a step of the model ends without a next state although the operation has a meaning. The
block's own faults (60_exceptions R200) are not here: they are next states, `PHASE = STOPPED`. -/
inductive Fault where
  /-- Raised by `E_SEEK`, `E_EDGE`, `Q_ALIGN`, `Q_EDGE`, `Q_RACE` and `OP_SEEK_ACTIVE` when `CFG` has no
  active polarity (10_state R23: none for `MODE = 2`); no start step leads there. Safe: the model stops
  (log 13). -/
  | noActivePolarity
  /-- Raised by the chip-select phases but `Q_EDGE` when no chip-select cursor exists (10_state R27: only
  with `CS_EN = 1`); no start step leads there. Safe: the model stops (log 13). -/
  | noChipSelect
  deriving DecidableEq, Repr

/-- The refusals of the model. -/
inductive Refusal where
  /-- Raised by an arm of `exec` whose operation has no meaning yet; no arm does. Safe. -/
  | notModelled (mnemonic : String)
  deriving DecidableEq, Repr

/-- The state: the run's registers, its latched configuration and cursors, its output stream, and
the environment (10_state R20). -/
structure State where
  /-- The implementation parameters (00_scope R8); no step writes them. -/
  config : Config
  /-- What the host presents for the next start step; environment. -/
  inputs : Inputs
  /-- `B` and `ENDED`; environment. -/
  producer : Producer
  /-- `CFG` as latched by the start step (10_state R22). -/
  cfg : BitVec 32
  /-- The clock binding and `POS[CLK]`. -/
  clk : Cursor
  /-- The chip-select binding and `POS[CS]`, when present. -/
  cs : Option Cursor
  /-- The channel mapping `D[i]`, `M[i]` and the positions `POS[D[i]]` (10_state R26). -/
  data : List Line
  /-- `PHASE` (10_state R28). -/
  phase : Phase
  /-- `LAST_W` (10_state R29). -/
  lastW : Pos
  /-- `LAST_W_KNOWN` (10_state R29). -/
  lastWKnown : Bool
  /-- `SEQ` (10_state R30). -/
  seq : BitVec 64
  /-- `NEW_ASSERT` (10_state R31). -/
  newAssert : Bool
  /-- `S_LATCH` (10_state R32). -/
  sLatch : Pos
  /-- `W_LATCH` (10_state R32). -/
  wLatch : Word
  /-- `EST_LATCH` (10_state R32). -/
  estLatch : Pos
  /-- `PEND_VALID` (10_state R33). -/
  pendValid : Bool
  /-- `PEND_VAL` (10_state R33). -/
  pendVal : Word
  /-- `PEND_START` (10_state R33). -/
  pendStart : Pos
  /-- `PROGRESS` (10_state R34). -/
  progress : Pos
  /-- `CAUSE` (10_state R35). -/
  cause : BitVec 8
  /-- `OUT`, oldest record first (10_state R37). -/
  out : List Record
  /-- What the sink received from earlier runs, oldest first; environment (log 18). -/
  sink : List (List Record)
  /-- The turns to come; when it is empty every turn is the block's (the model's own, log 4). -/
  schedule : List Turn
  /-- The value a shared operation returned when executed by itself (the model's own, log 11). -/
  ret : BitVec 64
  deriving DecidableEq, Repr

/-- A channel that is low throughout. -/
def Trace.quiet : Trace := { initial := false, edges := [] }

/-- The state at reset (10_state R41, 70_reset_and_hazards R220): `PHASE = IDLE`, every cursor at 0, the
width unknown, nothing emitted. The unspecified registers are 0 (log 1), nothing is bound (log 2), the
capture is empty and live (log 3), and no turn is listed (log 4). -/
def State.reset : State where
  config := {}
  inputs := { cfg := 0#32, data := [], clk := Trace.quiet, cs := none }
  producer := { buffered := 0#64, ended := false }
  cfg := 0#32
  clk := { trace := Trace.quiet, pos := 0#64 }
  cs := none
  data := []
  phase := .idle
  lastW := 0#64
  lastWKnown := false
  seq := 0#64
  newAssert := false
  sLatch := 0#64
  wLatch := 0#16
  estLatch := 0#64
  pendValid := false
  pendVal := 0#16
  pendStart := 0#64
  progress := 0#64
  cause := 0#8
  out := []
  sink := []
  schedule := []
  ret := 0#64

end Sys2Proof.Machine
end

