-- ==== Sys2Proof/Machine/Ops.lean ====
section
/-! DEFINITION. The named operations over traces, cursors and registers: register updates, the cursor
primitives (20_memory R51 to R62), and how a step ends: its effects, a hold, `done`, or a fault
(60_exceptions R205 to R207). -/

namespace Sys2Proof.Machine

/-! ## Register updates: each names the fields it writes -/

/-- `PHASE <- p`. -/
def State.setPhase (s : State) (p : Phase) : State := { s with phase := p }

/-- `CAUSE <- c`. -/
def State.setCause (s : State) (c : BitVec 8) : State := { s with cause := c }

/-- `POS[CLK]` (with its trace). -/
def State.setClk (s : State) (c : Cursor) : State := { s with clk := c }

/-- `POS[CS]` (with its trace). -/
def State.setCs (s : State) (c : Option Cursor) : State := { s with cs := c }

/-- The channel mapping with `POS[D[i]]`. -/
def State.setData (s : State) (ls : List Line) : State := { s with data := ls }

/-- `CFG`. -/
def State.setCfg (s : State) (w : BitVec 32) : State := { s with cfg := w }

/-- Appends records to `OUT` (10_state R37). -/
def State.emit (s : State) (rs : List Record) : State := { s with out := s.out ++ rs }

/-- `LAST_W` and `LAST_W_KNOWN`. -/
def State.setLastW (s : State) (w : Pos) (known : Bool) : State :=
  { s with lastW := w, lastWKnown := known }

/-- `SEQ` and `NEW_ASSERT`. -/
def State.setSeq (s : State) (q : BitVec 64) (fresh : Bool) : State :=
  { s with seq := q, newAssert := fresh }

/-- `S_LATCH` and `W_LATCH`. -/
def State.setFrameLatch (s : State) (p : Pos) (w : Word) : State :=
  { s with sLatch := p, wLatch := w }

/-- `EST_LATCH`. -/
def State.setEstLatch (s : State) (e : Pos) : State := { s with estLatch := e }

/-- `PEND_VALID`. -/
def State.setPendValid (s : State) (v : Bool) : State := { s with pendValid := v }

/-- `PEND_VAL` and `PEND_START`. -/
def State.setPending (s : State) (w : Word) (p : Pos) : State :=
  { s with pendVal := w, pendStart := p }

/-- `PROGRESS`. -/
def State.setProgress (s : State) (p : Pos) : State := { s with progress := p }

/-- `B` and `ENDED`. -/
def State.setProducer (s : State) (p : Producer) : State := { s with producer := p }

/-- What the host presents. -/
def State.setInputs (s : State) (i : Inputs) : State := { s with inputs := i }

/-- The turns to come. -/
def State.setSchedule (s : State) (ts : List Turn) : State := { s with schedule := ts }

/-- The value a shared operation returns (log 11). -/
def State.setRet (s : State) (v : BitVec 64) : State := { s with ret := v }

/-! ## How a primitive or a step ends -/

/-- What an operation comes to: a value, or one of the ways it does not go on. -/
inductive Res (α : Type) where
  /-- It completes. -/
  | ok (a : α)
  /-- It holds: there is no step now (60_exceptions R207). -/
  | hold
  /-- The run ends normally (R206). -/
  | done
  /-- It raises a fault of the block (R205). -/
  | raise (c : Cause)
  /-- The spec gives it no meaning in this state. -/
  | stuck (f : Fault)
  deriving DecidableEq, Repr

/-- Goes on with the value of a completed operation; every other end ends the whole step. -/
def Res.bind {α β : Type} (r : Res α) (k : α → Res β) : Res β :=
  match r with
  | .ok a => k a
  | .hold => .hold
  | .done => .done
  | .raise c => .raise c
  | .stuck f => .stuck f

/-- Stop entry (60_exceptions R201, R205): `CAUSE` takes the code, `PHASE <- STOPPED`, and nothing else
changes. The one operation by which the block takes an exception; there is no return from it (R210). -/
def State.stop (s : State) (c : Cause) : State := (s.setCause c.code).setPhase .stopped

/-- The normal end (60_exceptions R206): `PHASE <- DONE` and nothing else. -/
def State.finish (s : State) : State := s.setPhase .done

/-- A step is atomic (00_scope R12): from `s` it completes all its writes, or holds with no effect
(R207), ends the run (R206) or stops it (R205) with none of its own writes. -/
def Res.settle (r : Res State) (s : State) : Host.Outcome State Fault Refusal :=
  match r with
  | .ok t => .next t
  | .hold => .next s
  | .done => .next s.finish
  | .raise c => .next (s.stop c)
  | .stuck f => .fault f

/-! ## Traces (20_memory R50, R51, R55) -/

/-- `level(c, p)`: the initial level, inverted once for each transition at or before `p` (R51). -/
def Trace.level (t : Trace) (p : Pos) : Level :=
  t.initial ^^ ((t.edges.countP (fun e => e ≤ p)) % 2 == 1)

/-- `next_t(c, p)`, the first transition after `p`; `none` is `∞` (R55). -/
def Trace.nextEdge (t : Trace) (p : Pos) : Option Pos := t.edges.find? (fun e => p < e)

/-- `next_active(p)`, the first transition after `p` that the level `act` follows (R55). -/
def Trace.nextActive (t : Trace) (act : Level) (p : Pos) : Option Pos :=
  t.edges.find? (fun e => p < e && t.level e == act)

/-- The canonical form of a trace: every transition is at least 1 and the list rises strictly (R50). -/
def Trace.wf (t : Trace) : Bool :=
  t.edges.all (fun p => 0#64 < p) && decide (t.edges.Pairwise (fun p q => p < q))

/-- The trace has no transition at or after `b` (the producer's duty at the end of capture, R52). -/
def Trace.fits (t : Trace) (b : Pos) : Bool := t.edges.all (fun e => e < b)

/-- `known(x)` (R55): `∞` is never known. -/
def Producer.known (pr : Producer) (x : Option Pos) : Bool :=
  match x with
  | some p => p < pr.buffered
  | none => false

/-- `x < y` where `none` is `∞` (00_scope R10). -/
def posLt (x y : Option Pos) : Bool :=
  match x, y with
  | some p, some q => p < q
  | some _, none => true
  | none, _ => false

/-- `min(x, y)` where `none` is `∞` (00_scope R10). -/
def posMin (x y : Option Pos) : Option Pos := if posLt x y then x else y

/-! ## Cursor primitives (20_memory R56 to R61) -/

/-- `current_level(c)` (R56). -/
def Cursor.currentLevel (pr : Producer) (c : Cursor) : Res Level :=
  if pr.ended then
    if pr.buffered = 0#64 then .done else .ok (c.trace.level c.pos)
  else if c.pos < pr.buffered then .ok (c.trace.level c.pos)
  else .hold

/-- `advance_to_next_edge(c)` (R57): the moved cursor. -/
def Cursor.advanceToNextEdge (pr : Producer) (c : Cursor) : Res Cursor :=
  match c.trace.nextEdge c.pos with
  | some t => if t < pr.buffered then .ok { c with pos := t } else if pr.ended then .done else .hold
  | none => if pr.ended then .done else .hold

/-- `advance_to_absolute(c, p)` (R58): the moved cursor. -/
def Cursor.advanceToAbsolute (pr : Producer) (c : Cursor) (p : Pos) : Res Cursor :=
  if p < c.pos then .raise .nonmonotonic
  else if p < pr.buffered ∨ pr.ended then .ok { c with pos := p }
  else .hold

/-- `more_transitions_buffered(c)` (R59). -/
def Cursor.moreBuffered (pr : Producer) (c : Cursor) : Bool := pr.known (c.trace.nextEdge c.pos)

/-- `would_advancing_cross(c, n)` (R60), the overflow check first (60_exceptions R209). -/
def Cursor.wouldCross (pr : Producer) (c : Cursor) (n : Pos) : Res Bool :=
  if 2 ^ 64 ≤ c.pos.toNat + n.toNat then .raise .posOverflow
  else if c.pos + n < pr.buffered ∨ pr.ended then
    .ok (match c.trace.nextEdge c.pos with
      | some t => t ≤ c.pos + n
      | none => false)
  else .hold

/-- `next_edge(c)` (R61): the next transition, or `∞` once the capture has ended. -/
def Cursor.nextEdge (pr : Producer) (c : Cursor) : Res (Option Pos) :=
  if pr.known (c.trace.nextEdge c.pos) then .ok (c.trace.nextEdge c.pos)
  else if pr.ended then .ok none
  else .hold

/-- `seek_active()` on the clock cursor (R62, as 90_conflicts C3 reads it): from the level that
follows an active edge two advances, otherwise one. The composite holds or ends as one step. -/
def Cursor.seekActive (pr : Producer) (act : Level) (c : Cursor) : Res Cursor :=
  (c.currentLevel pr).bind fun lvl =>
    if lvl = act then
      (c.advanceToNextEdge pr).bind fun c' => c'.advanceToNextEdge pr
    else c.advanceToNextEdge pr

/-! ## The machine's own readings -/

/-- `ACT` of the latched configuration (10_state R23). -/
def State.act (s : State) : Res Level :=
  match cfgAct s.cfg with
  | some a => .ok a
  | none => .stuck .noActivePolarity

/-- The chip-select cursor, which exists only with a chip-select binding (10_state R27). -/
def State.csCursor (s : State) : Res Cursor :=
  match s.cs with
  | some c => .ok c
  | none => .stuck .noChipSelect

/-- The race of a chip-select phase (43_cs_decoder R152, R155): `min(a, c)` must be buffered, or the step
holds, or the run ends when the capture has ended. The answer is whether the clock wins; a tie goes
to chip-select (R158). -/
def Producer.race (pr : Producer) (a c : Option Pos) : Res Bool :=
  if pr.known (posMin a c) then .ok (posLt a c)
  else if pr.ended then .done
  else .hold

/-- Every trace of the presented bindings. -/
def Inputs.traces (i : Inputs) : List Trace := i.clk :: (i.cs.toList ++ i.data.reduceOption)

/-- Every trace the run reads. -/
def State.traces (s : State) : List Trace :=
  s.clk.trace :: (s.cs.toList.map (fun c => c.trace) ++ s.data.map (fun l => l.cursor.trace))

/-- Every trace, presented or latched, is in its canonical form (20_memory R50). -/
def Memory.wf (s : State) : Bool := s.inputs.traces.all Trace.wf && s.traces.all Trace.wf

end Sys2Proof.Machine
end

