-- ==== Sys2Proof/Machine/Flags.lean ====
section
/-! DEFINITION. The block's counterparts of flags (10_state R21): `LAST_W_KNOWN`, `NEW_ASSERT` and
`PEND_VALID`, each with the registers it guards. -/

namespace Sys2Proof.Machine

/-- The width a commit records (41_frame_emitter R112): `max(1, end - start)`. -/
def frameWidth (startPos endPos : Pos) : Pos :=
  BitVec.ofNat 64 (max 1 (endPos.toNat - startPos.toNat))

/-- `LAST_W <- max(1, end - start)`, `LAST_W_KNOWN <- 1` (10_state R29, 41_frame_emitter R111). -/
def State.recordWidth (s : State) (startPos endPos : Pos) : State :=
  s.setLastW (frameWidth startPos endPos) true

/-- `LAST_W_KNOWN <- 0` (43_cs_decoder R157). -/
def State.forgetWidth (s : State) : State := s.setLastW s.lastW false

/-- A new assertion: `SEQ <- 0`, `NEW_ASSERT <- 1` (10_state R30, R31). -/
def State.beginAssertion (s : State) : State := s.setSeq 0#64 true

/-- A frame of the assertion is committed: `SEQ <- SEQ + 1` modulo `2^64`, `NEW_ASSERT <- 0`
(41_frame_emitter R111). -/
def State.countFrame (s : State) : State := s.setSeq (s.seq + 1#64) false

/-- The pending frame opens (44_dual_edge_decoder R172): `PEND_VAL`, `PEND_START`, `PEND_VALID <- 1`. -/
def State.openPending (s : State) (w : Word) (p : Pos) : State :=
  (s.setPending w p).setPendValid true

end Sys2Proof.Machine
end

