-- ==== Sys2Proof/Machine/Operands.lean ====
section
/-! DEFINITION. The assembled operands (30_encoding R85): the sampled word and the estimated width, and
the provisional end computed from it. -/

namespace Sys2Proof.Machine

/-- The bit a line contributes to the word: its mask when it reads 1 (40_word_sampler R101). -/
def Line.bits (l : Line) (lvl : Level) : Word := if lvl then l.mask else 0#16

/-- The sampler's loop (40_word_sampler R100): each line's cursor is moved to `p` and read, in
configuration order; the answer is the moved lines and the OR of the bits. -/
def sampleLines (pr : Producer) (p : Pos) : List Line → Res (List Line × Word)
  | [] => .ok ([], 0#16)
  | l :: ls =>
    (l.cursor.advanceToAbsolute pr p).bind fun c =>
      (c.currentLevel pr).bind fun lvl =>
        (sampleLines pr p ls).bind fun rest =>
          .ok ({ l with cursor := c } :: rest.1, l.bits lvl ||| rest.2)

/-- The sampler's markers: one dot for each of `n` lines, `D[0]` first (40_word_sampler R102). -/
def dots (n : Nat) (p : Pos) : List Record :=
  (List.range n).map fun i => .marker { kind := .dot, channel := .data i, pos := p }

/-- `sample_word(p)` (40_word_sampler R100). A backward move of any line is a fault before any hold
(60_exceptions R209, log 17). -/
def State.sampleWord (s : State) (p : Pos) : Res (State × Word) :=
  if s.data.any (fun l => p < l.cursor.pos) then .raise .nonmonotonic
  else
    (sampleLines s.producer p s.data).bind fun r =>
      .ok ((s.setData r.1).emit (dots s.data.length p), r.2)

/-- The estimated width in unbounded integers (41_frame_emitter R110). -/
def estimateNat (c : Config) (known : Bool) (w : Pos) : Nat :=
  if known then max c.estFloor ((w.toNat + c.estDiv / 2) / c.estDiv) else c.estSeed

/-- `estimate_width()` (41_frame_emitter R110). -/
def State.estimateWidth (s : State) : Pos :=
  BitVec.ofNat 64 (estimateNat s.config s.lastWKnown s.lastW)

/-- The provisional end of the edge-gated decoder, `max(S + e - 1, S + EST_CLAMP)`
(41_frame_emitter R115, 42_edge_decoder R136); a window or a clamp past `2^64 - 1` is a fault
(42_edge_decoder R135, 60_exceptions R200). -/
def State.provisionalEnd (s : State) (startPos e : Pos) : Res Pos :=
  if 2 ^ 64 ≤ max (startPos.toNat + e.toNat) (startPos.toNat + s.config.estClamp) then .raise .posOverflow
  else .ok (BitVec.ofNat 64 (max (startPos.toNat + e.toNat - 1) (startPos.toNat + s.config.estClamp)))

end Sys2Proof.Machine
end

