-- ==== Sys2Proof/Machine/Emitter.lean ====
section
/-! DEFINITION. The Word Sampler and the Frame Emitter (40_word_sampler, 41_frame_emitter): the shared
operations the decoders call, and the meanings of their opcode-table rows executed by themselves. -/

namespace Sys2Proof.Machine

/-- `report_progress(pos)` (41_frame_emitter R113). -/
def State.reportProgress (s : State) (p : Pos) : State := (s.emit [.progress p]).setProgress p

/-- The `seq` field of a frame committed now: present exactly in chip-select mode (10_state R38). -/
def State.frameSeq (s : State) : Option (BitVec 64) := if cfgCsEn s.cfg then some s.seq else none

/-- The sequence bookkeeping of a commit, in chip-select mode only (41_frame_emitter R111). -/
def State.afterFrame (s : State) : State := if cfgCsEn s.cfg then s.countFrame else s

/-- `commit(value, start, end)` (41_frame_emitter R111). -/
def State.commit (s : State) (value : Word) (startPos endPos : Pos) : State :=
  (((s.emit [.frame { value := value, startPos := startPos, endPos := endPos, seq := s.frameSeq }]).afterFrame).recordWidth
    startPos endPos).reportProgress endPos

/-- The arrow of a level: up for 1, down for 0 (41_frame_emitter R114). -/
def arrow (lvl : Level) : MarkerKind := if lvl then .arrowUp else .arrowDown

/-- `mark_arrow(p, lvl)` (41_frame_emitter R114). -/
def State.markArrow (s : State) (p : Pos) (lvl : Level) : State :=
  s.emit [.marker { kind := arrow lvl, channel := .clk, pos := p }]

/-- `OP_SAMPLE_WORD`: the sampler by itself; the word it returns is left in `ret` (log 11). -/
def execOpSampleWord (p : Pos) (s : State) : Host.Outcome State Fault Refusal :=
  (s.sampleWord p |>.bind fun r => .ok (r.1.setRet (r.2.setWidth 64))).settle s

/-- `OP_ESTIMATE_WIDTH`: the estimator by itself; it writes no register of the block (log 11). -/
def execOpEstimateWidth (s : State) : Host.Outcome State Fault Refusal :=
  .next (s.setRet s.estimateWidth)

/-- `OP_COMMIT`: the commit by itself. The precondition `start <= end` and `value < 2^NDATA` are the
caller's and are not checked here: DESIGN CHOICE (log 28). -/
def execOpCommit (value : Word) (startPos endPos : Pos) (s : State) :
    Host.Outcome State Fault Refusal :=
  .next (s.commit value startPos endPos)

/-- `OP_REPORT_PROGRESS`: the progress report by itself, also at a position before `PROGRESS` (log 28). -/
def execOpReportProgress (p : Pos) (s : State) : Host.Outcome State Fault Refusal :=
  .next (s.reportProgress p)

/-- `OP_MARK_ARROW`: the clock arrow by itself, at any position (log 28). -/
def execOpMarkArrow (p : Pos) (lvl : Level) (s : State) : Host.Outcome State Fault Refusal :=
  .next (s.markArrow p lvl)

end Sys2Proof.Machine
end

