-- ==== Sys2Proof/Machine/ChipSelect.lean ====
section
/-! DEFINITION. The Chip-Select-Gated Decoder (43_cs_decoder): `Q_INIT`, `Q_ALIGN`, `Q_EDGE`, `Q_RACE`,
`Q_DEASSERT`, `Q_REASSERT`. Chip-select is active low (R151). The spec gives them for `CFG[2:0] = 100`
and `101`; where `CFG` is no such word but what they read is there they run as written: DESIGN CHOICE (log 26). -/

namespace Sys2Proof.Machine

/-- Moves the clock cursor to the chip-select cursor (43_cs_decoder R150, R157). -/
def State.syncClock (s : State) (cs : Cursor) : Res State :=
  (s.clk.advanceToAbsolute s.producer cs.pos).bind fun clk =>
    .ok ((s.setCs (some cs)).setClk clk)

/-- Phase `Q_INIT` (43_cs_decoder R150). -/
def State.qInit (s : State) : Res State :=
  s.csCursor.bind fun cs =>
    (cs.currentLevel s.producer).bind fun lvl =>
      (if lvl then (cs.advanceToNextEdge s.producer).bind fun cs' => s.syncClock cs'
        else .ok s).bind fun t =>
        .ok (t.beginAssertion.setPhase .qAlign)

/-- The end of a race the clock wins: its cursor moves forward to the active edge `a`; an edge behind the
cursor is a fault (70_reset_and_hazards R225), which only a latch away from the cursor can ask for. -/
def State.toActiveEdge (s : State) (a : Option Pos) : Res State :=
  match a with
  | some p => (s.clk.advanceToAbsolute s.producer p).bind fun c => .ok ((s.setClk c).setPhase .qEdge)
  | none => .ok s

/-- Phase `Q_ALIGN` (43_cs_decoder R152, tie R158). -/
def State.qAlign (s : State) : Res State :=
  s.act.bind fun act =>
    s.csCursor.bind fun cs =>
      let a := s.clk.trace.nextActive act s.clk.pos
      let c := cs.trace.nextEdge cs.pos
      (s.producer.race a c).bind fun clockWins =>
        if clockWins then s.toActiveEdge a else .ok (s.setPhase .qDeassert)

/-- Phase `Q_EDGE` (43_cs_decoder R154). -/
def State.qEdge (s : State) : Res State :=
  s.act.bind fun act =>
    (s.sampleWord s.clk.pos).bind fun r =>
      .ok (((r.1.markArrow s.clk.pos act).setFrameLatch s.clk.pos r.2).setPhase .qRace)

/-- The last sample before an edge. -/
def lastBefore (e : Option Pos) : Pos :=
  match e with
  | some p => p - 1#64
  | none => 0#64

/-- Phase `Q_RACE` (43_cs_decoder R155, tie R158, live tail R159). -/
def State.qRace (s : State) : Res State :=
  s.act.bind fun act =>
    s.csCursor.bind fun cs =>
      let a := s.clk.trace.nextActive act s.sLatch
      let c := cs.trace.nextEdge cs.pos
      (s.producer.race a c).bind fun clockWins =>
        if clockWins then (s.commit s.wLatch s.sLatch (lastBefore a)).toActiveEdge a
        else .ok ((s.commit s.wLatch s.sLatch (lastBefore c)).setPhase .qDeassert)

/-- Phase `Q_DEASSERT` (43_cs_decoder R156). -/
def State.qDeassert (s : State) : Res State :=
  s.csCursor.bind fun cs =>
    (cs.advanceToNextEdge s.producer).bind fun cs' =>
      .ok (((s.setCs (some cs')).reportProgress cs'.pos).setPhase .qReassert)

/-- Phase `Q_REASSERT` (43_cs_decoder R157). -/
def State.qReassert (s : State) : Res State :=
  s.csCursor.bind fun cs =>
    (cs.advanceToNextEdge s.producer).bind fun cs' =>
      (s.syncClock cs').bind fun t =>
        .ok (((t.reportProgress cs'.pos).beginAssertion.forgetWidth).setPhase .qAlign)

/-- `PH_Q_INIT`. -/
def execPhQInit (s : State) : Host.Outcome State Fault Refusal := s.qInit.settle s

/-- `PH_Q_ALIGN`. -/
def execPhQAlign (s : State) : Host.Outcome State Fault Refusal := s.qAlign.settle s

/-- `PH_Q_EDGE`. -/
def execPhQEdge (s : State) : Host.Outcome State Fault Refusal := s.qEdge.settle s

/-- `PH_Q_RACE`. -/
def execPhQRace (s : State) : Host.Outcome State Fault Refusal := s.qRace.settle s

/-- `PH_Q_DEASSERT`. -/
def execPhQDeassert (s : State) : Host.Outcome State Fault Refusal := s.qDeassert.settle s

/-- `PH_Q_REASSERT`. -/
def execPhQReassert (s : State) : Host.Outcome State Fault Refusal := s.qReassert.settle s

end Sys2Proof.Machine
end

