-- ==== Sys2Proof/Machine/DualEdge.lean ====
section
/-! DEFINITION. The Dual-Edge Decoder (44_dual_edge_decoder): `D_HEAD`, `D_ADVANCE`, `D_PROBE`, and the
shared operation `close_and_open`. The spec gives them for `CFG[2:0] = 010` and with what their phase
relies on; elsewhere they run as written, a commit following `CS_EN`: DESIGN CHOICE (log 26). -/

namespace Sys2Proof.Machine

/-- Closes the pending frame, if there is one, at the sample before edge `e` (44_dual_edge_decoder R172). -/
def State.closePending (s : State) (e : Pos) : State :=
  if s.pendValid then s.commit s.pendVal s.pendStart (e - 1#64) else s

/-- `close_and_open(E)` (44_dual_edge_decoder R172). The clock's level at `E` is read as `current_level`
reads it, so that with no data line too a position not buffered holds (20_memory R54, R56, log 28). -/
def State.closeAndOpen (s : State) (e : Pos) : Res State :=
  let t := s.closePending e
  (t.sampleWord e).bind fun r =>
    (Cursor.currentLevel s.producer { s.clk with pos := e }).bind fun lvl =>
      .ok (((r.1.markArrow e lvl).openPending r.2 e).setPhase .dHead)

/-- Phase `D_HEAD` (44_dual_edge_decoder R171, as 90_conflicts C6 reads the source); under any `CFG` (log 26). -/
def State.dHead (s : State) : State :=
  if s.pendValid && !s.clk.moreBuffered s.producer then
    (s.setEstLatch s.estimateWidth).setPhase .dProbe
  else s.setPhase .dAdvance

/-- To the next real clock edge, closing and opening there (44_dual_edge_decoder R172, R174). -/
def State.toRealEdge (s : State) : Res State :=
  (s.clk.advanceToNextEdge s.producer).bind fun c => (s.setClk c).closeAndOpen c.pos

/-- Phase `D_ADVANCE` (44_dual_edge_decoder R172); under any `CFG` (log 26). -/
def State.dAdvance (s : State) : Res State := s.toRealEdge

/-- Phase `D_PROBE` (44_dual_edge_decoder R174): a provisional frame moves the clock cursor to `s + e`;
under any `CFG`, and whether or not a frame is pending (log 26). -/
def State.dProbe (s : State) : Res State :=
  (s.clk.wouldCross s.producer s.estLatch).bind fun crosses =>
    if crosses then s.toRealEdge
    else
      (s.clk.advanceToAbsolute s.producer (s.clk.pos + s.estLatch)).bind fun c =>
        .ok ((((s.setClk c).commit s.pendVal s.pendStart (c.pos - 1#64)).setPendValid false).setPhase .dHead)

/-- `PH_D_HEAD`. -/
def execPhDHead (s : State) : Host.Outcome State Fault Refusal := .next s.dHead

/-- `PH_D_ADVANCE`. -/
def execPhDAdvance (s : State) : Host.Outcome State Fault Refusal := s.dAdvance.settle s

/-- `PH_D_PROBE`. -/
def execPhDProbe (s : State) : Host.Outcome State Fault Refusal := s.dProbe.settle s

/-- `OP_CLOSE_AND_OPEN`: closing and opening at an edge, by itself; the operand is not checked to be a
buffered clock edge after the pending frame's start (log 28). -/
def execOpCloseAndOpen (e : Pos) (s : State) : Host.Outcome State Fault Refusal :=
  (s.closeAndOpen e).settle s

end Sys2Proof.Machine
end

