-- ==== Sys2Proof/Machine/EdgeGated.lean ====
section
/-! DEFINITION. The Edge-Gated Decoder (42_edge_decoder): `E_SEEK`, `E_EDGE`, `E_PROBE`, and the shared
operations `seek_active` and `finish_real`. The spec gives them for `CFG[2:0] = 000` and `001`; where
`CFG` has a polarity but is no such word they run as written: DESIGN CHOICE (log 26). -/

namespace Sys2Proof.Machine

/-- `seek_active()` (20_memory R62): the clock cursor moves to the next active edge. -/
def State.seekActive (s : State) : Res State :=
  s.act.bind fun act => (s.clk.seekActive s.producer act).bind fun c => .ok (s.setClk c)

/-- `finish_real(w, S)` (42_edge_decoder R133): to the inactive edge, and on to the next active edge if
it too is buffered; the frame ends one sample before the last edge reached. -/
def State.finishReal (s : State) (w : Word) (startPos : Pos) : Res State :=
  (s.clk.advanceToNextEdge s.producer).bind fun inactive =>
    if inactive.moreBuffered s.producer then
      (inactive.advanceToNextEdge s.producer).bind fun active =>
        .ok (((s.setClk active).commit w startPos (active.pos - 1#64)).setPhase .eEdge)
    else
      .ok (((s.setClk inactive).commit w startPos (inactive.pos - 1#64)).setPhase .eSeek)

/-- Phase `E_SEEK` (42_edge_decoder R131). -/
def State.eSeek (s : State) : Res State := s.seekActive.bind fun t => .ok (t.setPhase .eEdge)

/-- Phase `E_EDGE` (42_edge_decoder R132). -/
def State.eEdge (s : State) : Res State :=
  s.act.bind fun act =>
    (s.sampleWord s.clk.pos).bind fun r =>
      let t := r.1.markArrow s.clk.pos act
      if t.clk.moreBuffered t.producer then t.finishReal r.2 s.clk.pos
      else
        .ok (((t.setFrameLatch s.clk.pos r.2).setEstLatch t.estimateWidth).setPhase .eProbe)

/-- Phase `E_PROBE` (42_edge_decoder R135): the clock cursor stays at the start of a provisional frame
(R136). The overflow of `S + e` is checked first, also where `S_LATCH` is away from the clock cursor
(60_exceptions R209, log 26). -/
def State.eProbe (s : State) : Res State :=
  (s.provisionalEnd s.sLatch s.estLatch).bind fun provisional =>
    (s.clk.wouldCross s.producer s.estLatch).bind fun crosses =>
      if crosses then s.finishReal s.wLatch s.sLatch
      else .ok ((s.commit s.wLatch s.sLatch provisional).setPhase .eSeek)

/-- `PH_E_SEEK`. -/
def execPhESeek (s : State) : Host.Outcome State Fault Refusal := s.eSeek.settle s

/-- `PH_E_EDGE`. -/
def execPhEEdge (s : State) : Host.Outcome State Fault Refusal := s.eEdge.settle s

/-- `PH_E_PROBE`. -/
def execPhEProbe (s : State) : Host.Outcome State Fault Refusal := s.eProbe.settle s

/-- `OP_SEEK_ACTIVE`: the seek by itself. -/
def execOpSeekActive (s : State) : Host.Outcome State Fault Refusal := s.seekActive.settle s

/-- `OP_FINISH_REAL`: the edge-advancing logic by itself; its operands are not checked (log 28). -/
def execOpFinishReal (w : Word) (startPos : Pos) (s : State) : Host.Outcome State Fault Refusal :=
  (s.finishReal w startPos).settle s

end Sys2Proof.Machine
end

