-- ==== Sys2Proof/Machine/Start.lean ====
section
/-! DEFINITION. The start step and the configuration rows (30_encoding R80 to R82, 60_exceptions R201,
70_reset_and_hazards R221). -/

namespace Sys2Proof.Machine

/-- A fresh cursor on a trace, at position 0 (10_state R27). -/
def Trace.cursor (t : Trace) : Cursor := { trace := t, pos := 0#64 }

/-- The channel mapping (10_state R26): the bound data traces in configuration order, entry `i` with
mask `1 << i`; `i` is the index of the list's first entry. -/
def mapLines (i : Nat) : List Trace → List Line
  | [] => []
  | t :: ts => { cursor := t.cursor, mask := 1#16 <<< i } :: mapLines (i + 1) ts

/-- The bound data traces, "unused" entries removed (10_state R26). -/
def Inputs.lines (i : Inputs) : List Trace := i.data.reduceOption

/-- Latches `CFG` and the bindings, every cursor at 0 (10_state R22, R27; 70_reset_and_hazards R221). -/
def State.latch (s : State) (w : BitVec 32) : State :=
  (((s.setCfg w).setClk s.inputs.clk.cursor).setCs (s.inputs.cs.map Trace.cursor)).setData
    (mapLines 0 s.inputs.lines)

/-- The start-time checks in the order of their codes; the first that fails is the cause
(60_exceptions R200, R201). -/
def startCheck (c : Config) (w : BitVec 32) (i : Inputs) : Option Cause :=
  if cfgReserved w ≠ 0#29 then some .cfgReservedBits
  else if cfgMode w = 3#2 then some .cfgReservedMode
  else if cfgCsEn w = true ∧ cfgMode w = 2#2 then some .cfgCsDual
  else if i.lines.length = 0 then some .cfgNoData
  else if c.maxData < i.lines.length then some .cfgTooManyData
  else if cfgCsEn w ≠ i.cs.isSome then some .cfgCsBinding
  else none

/-- The accepted configuration's first phase; in dual-edge mode no frame is pending
(30_encoding R81, 44_dual_edge_decoder R170, log 19). -/
def State.enter (s : State) (w : BitVec 32) : State :=
  match cfgFirstPhase w with
  | .dHead => (s.setPendValid false).setPhase .dHead
  | p => s.setPhase p

/-- The start step on configuration word `w` (70_reset_and_hazards R221): latch, check, then the stop or
the variant's first phase. It never holds and emits nothing. The spec takes it from `IDLE` alone; in any
other phase it runs the same, and keeps what it does not write: DESIGN CHOICE (log 27). -/
def State.start (s : State) (w : BitVec 32) : State :=
  match startCheck s.config w s.inputs with
  | some c => (s.latch w).stop c
  | none => (s.latch w).enter w

/-- `CFG_EDGE_RISE` (30_encoding R81). -/
def execCfgEdgeRise (s : State) : Host.Outcome State Fault Refusal := .next (s.start 0x00000000#32)

/-- `CFG_EDGE_FALL` (30_encoding R81). -/
def execCfgEdgeFall (s : State) : Host.Outcome State Fault Refusal := .next (s.start 0x00000001#32)

/-- `CFG_DUAL_EDGE` (30_encoding R81). -/
def execCfgDualEdge (s : State) : Host.Outcome State Fault Refusal := .next (s.start 0x00000002#32)

/-- `CFG_RESERVED_MODE3`: stops with 0x02 (60_exceptions R200). -/
def execCfgReservedMode3 (s : State) : Host.Outcome State Fault Refusal :=
  .next (s.start 0x00000003#32)

/-- `CFG_CS_RISE` (30_encoding R81). -/
def execCfgCsRise (s : State) : Host.Outcome State Fault Refusal := .next (s.start 0x00000004#32)

/-- `CFG_CS_FALL` (30_encoding R81). -/
def execCfgCsFall (s : State) : Host.Outcome State Fault Refusal := .next (s.start 0x00000005#32)

/-- `CFG_RESERVED_CS_DUAL`: stops with 0x03 (60_exceptions R200). -/
def execCfgReservedCsDual (s : State) : Host.Outcome State Fault Refusal :=
  .next (s.start 0x00000006#32)

/-- `CFG_RESERVED_CS_MODE3`: stops with 0x02, the mode check standing first (60_exceptions R200). -/
def execCfgReservedCsMode3 (s : State) : Host.Outcome State Fault Refusal :=
  .next (s.start 0x00000007#32)

/-- `CFG_RESERVED_BITS`: stops with 0x01 (30_encoding R82). With no reserved bit set, which no code decodes
to, it is the start step on the word its operands make (log 28). -/
def execCfgReservedBits (resv : BitVec 29) (low : BitVec 3) (s : State) :
    Host.Outcome State Fault Refusal :=
  .next (s.start (resv ++ low))

/-- `PH_IDLE_START`: the start step on the word the host presents (70_reset_and_hazards R221; outside
`IDLE`, log 27). -/
def execPhIdleStart (s : State) : Host.Outcome State Fault Refusal := .next (s.start s.inputs.cfg)

end Sys2Proof.Machine
end

