-- ==== Sys2Proof/Machine/Stops.lean ====
section
/-! DEFINITION. The final phases (60_exceptions R205, R206, R208, R210): the block has no further step,
so its turn changes nothing (log 7). -/

namespace Sys2Proof.Machine

/-- `PH_DONE` (42_edge_decoder R141, 60_exceptions R206): nothing more happens. -/
def execPhDone (s : State) : Host.Outcome State Fault Refusal := .next s

/-- `PH_CANCELLED` (60_exceptions R208): nothing more happens. -/
def execPhCancelled (s : State) : Host.Outcome State Fault Refusal := .next s

/-- `PH_STOPPED` (60_exceptions R205): nothing more happens. -/
def execPhStopped (s : State) : Host.Outcome State Fault Refusal := .next s

end Sys2Proof.Machine
end

