-- ==== Sys2Proof/Machine/Dispatch.lean ====
section
/-! DEFINITION. One arm for each operation, each calling its meaning. -/

namespace Sys2Proof.Machine

/-- The meaning of an operation. -/
def exec (i : Instr) (s : State) : Host.Outcome State Fault Refusal :=
  match i with
  | .cfgEdgeRise => Sys2Proof.Machine.execCfgEdgeRise s
  | .cfgEdgeFall => Sys2Proof.Machine.execCfgEdgeFall s
  | .cfgDualEdge => Sys2Proof.Machine.execCfgDualEdge s
  | .cfgReservedMode3 => Sys2Proof.Machine.execCfgReservedMode3 s
  | .cfgCsRise => Sys2Proof.Machine.execCfgCsRise s
  | .cfgCsFall => Sys2Proof.Machine.execCfgCsFall s
  | .cfgReservedCsDual => Sys2Proof.Machine.execCfgReservedCsDual s
  | .cfgReservedCsMode3 => Sys2Proof.Machine.execCfgReservedCsMode3 s
  | .cfgReservedBits resv low => Sys2Proof.Machine.execCfgReservedBits resv low s
  | .phESeek => Sys2Proof.Machine.execPhESeek s
  | .phEEdge => Sys2Proof.Machine.execPhEEdge s
  | .phEProbe => Sys2Proof.Machine.execPhEProbe s
  | .phQInit => Sys2Proof.Machine.execPhQInit s
  | .phQAlign => Sys2Proof.Machine.execPhQAlign s
  | .phQEdge => Sys2Proof.Machine.execPhQEdge s
  | .phQRace => Sys2Proof.Machine.execPhQRace s
  | .phQDeassert => Sys2Proof.Machine.execPhQDeassert s
  | .phQReassert => Sys2Proof.Machine.execPhQReassert s
  | .phDHead => Sys2Proof.Machine.execPhDHead s
  | .phDAdvance => Sys2Proof.Machine.execPhDAdvance s
  | .phDProbe => Sys2Proof.Machine.execPhDProbe s
  | .phIdleStart => Sys2Proof.Machine.execPhIdleStart s
  | .phDone => Sys2Proof.Machine.execPhDone s
  | .phCancelled => Sys2Proof.Machine.execPhCancelled s
  | .phStopped => Sys2Proof.Machine.execPhStopped s
  | .opSampleWord p => Sys2Proof.Machine.execOpSampleWord p s
  | .opEstimateWidth => Sys2Proof.Machine.execOpEstimateWidth s
  | .opCommit value startPos endPos => Sys2Proof.Machine.execOpCommit value startPos endPos s
  | .opReportProgress p => Sys2Proof.Machine.execOpReportProgress p s
  | .opMarkArrow p lvl => Sys2Proof.Machine.execOpMarkArrow p lvl s
  | .opFinishReal w startPos => Sys2Proof.Machine.execOpFinishReal w startPos s
  | .opCloseAndOpen edge => Sys2Proof.Machine.execOpCloseAndOpen edge s
  | .opSeekActive => Sys2Proof.Machine.execOpSeekActive s

end Sys2Proof.Machine
end

