-- ==== Sys2Proof/Machine/Environment.lean ====
section
/-! DEFINITION. The moves of the producer and the host (20_memory R52, R53; 60_exceptions R208, R210,
R213; 70_reset_and_hazards R220, R230), and the fetch of the block's next operation. -/

namespace Sys2Proof.Machine

/-- The presented bindings have canonical traces, and none has a transition at or after `B` once the
capture has ended (20_memory R50, R52). -/
def Inputs.usable (i : Inputs) (pr : Producer) : Bool :=
  i.traces.all Trace.wf && (!pr.ended || i.traces.all (fun t => t.fits pr.buffered))

/-- The traces whose transitions the end of capture must cover: those the run reads, or before the
start step those it would latch (20_memory R52). -/
def State.captured (s : State) : List Trace :=
  if s.phase = .idle then s.inputs.traces else s.traces

/-- A move of the environment. A move outside the liberties of 60_exceptions R213 changes nothing
(log 5): appending nothing, past the top or after the end; an end with a transition still to come;
cancelling a run that has ended; malformed traces; a new run while one is going. -/
def State.hostMove (s : State) (m : HostMove) : State :=
  match m with
  | .append n =>
    if s.producer.ended = false ∧ 0 < n ∧ s.producer.buffered.toNat + n < 2 ^ 64 then
      s.setProducer { s.producer with buffered := BitVec.ofNat 64 (s.producer.buffered.toNat + n) }
    else s
  | .endCapture =>
    if s.captured.all (fun t => t.fits s.producer.buffered) then
      s.setProducer { s.producer with ended := true }
    else s
  | .cancel => if s.phase.final then s else s.setPhase .cancelled
  | .present i =>
    if i.traces.all Trace.wf && (s.phase != .idle || i.usable s.producer) then s.setInputs i else s
  | .newRun pr =>
    if s.phase.final && s.inputs.usable pr then
      { State.reset with
        config := s.config
        inputs := s.inputs
        producer := pr
        sink := s.sink ++ [s.out]
        schedule := s.schedule }
    else s

/-- The operation the phase register selects (30_encoding R83, R84). -/
def fetch (s : State) : Instr := decodePhase s.phase.code

/-- The state with phase `p` selected: a word of one of its variants in `CFG` if there is none yet,
and a chip-select cursor exactly in the chip-select variants (10_state R27). -/
def State.select (s : State) (p : Phase) : State :=
  if p.inVariant s.cfg && s.cs.isSome == cfgCsEn s.cfg then s.setPhase p
  else
    let w := if p.inVariant s.cfg then s.cfg else p.leastVariant
    ((s.setCfg w).setCs (if cfgCsEn w then some (s.cs.getD Trace.quiet.cursor) else none)).setPhase p

/-- The state with a code in the place the fetch reads it from (log 14): a configuration word is
presented to the start step in `IDLE`; a phase code is put in `PHASE`, one of its variants selected. -/
def State.withCode (s : State) (c : Code) : State :=
  match c with
  | .cfg w => (s.setInputs { s.inputs with cfg := w }).setPhase .idle
  | .phase w => s.select (Phase.ofCode w)

/-- The schedule with the block's turn next. -/
def blockNext (ts : List Turn) : List Turn :=
  match ts with
  | .host m :: rest => .block :: .host m :: rest
  | .block :: rest => .block :: rest
  | [] => []

end Sys2Proof.Machine
end

