-- ==== Sys2Proof/Machine/Step.lean ====
section
/-! DEFINITION. One step of the machine: the next turn of the schedule, the block's or the
environment's (20_memory R53, R68; 60_exceptions R209). -/

namespace Sys2Proof.Machine

/-- The block's turn: the operation its phase register selects. -/
def blockStep (s : State) : Host.Outcome State Fault Refusal := exec (fetch s) s

/-- One step. With no turn listed it is the block's turn (log 4). -/
def step (s : State) : Host.Outcome State Fault Refusal :=
  match s.schedule with
  | [] => blockStep s
  | .block :: rest => blockStep (s.setSchedule rest)
  | .host m :: rest => .next ((s.setSchedule rest).hostMove m)

/-- `s` with the operation of a table row's word as the one its next step runs (log 14). -/
def State.withFetchWord (s : State) (nbits w : Nat) : State :=
  match codeOfTableWord nbits w with
  | some c => (s.withCode c).setSchedule (blockNext s.schedule)
  | none => s

end Sys2Proof.Machine
end

