-- ==== Sys2Proof/Safety.lean ====
section
/-! DEFINITION. What a sound state of a run is, in the terms the claims use: the invariant of the three
decoders (42_edge_decoder R134, 43_cs_decoder R153 and R160, 44_dual_edge_decoder R173), and what an
observer below the buffered length can see (20_memory R54). -/

namespace Sys2Proof.Machine

/-! ## Readings of a state -/

/-- The word the data lines show at `p`: the OR of the masks of the lines that read 1
(40_word_sampler R101). -/
def wordAt (ls : List Line) (p : Pos) : Word :=
  ls.foldl (fun w l => if l.cursor.trace.level p then w ||| l.mask else w) 0#16

/-- The lines with every cursor at `p` (40_word_sampler R100, "State written"). -/
def linesAt (ls : List Line) (p : Pos) : List Line :=
  ls.map fun l => { l with cursor := { l.cursor with pos := p } }

/-- The mask list is the one 10_state R26 fixes: entry `i` is `1 << i`. -/
def masksOk (ls : List Line) : Bool := ls.map (fun l => l.mask) == (List.range ls.length).map (fun i => 1#16 <<< i)

/-- Position `p` can be read now (20_memory R56, R58). -/
def Producer.readable (pr : Producer) (p : Pos) : Bool :=
  if pr.ended then pr.buffered != 0#64 else p < pr.buffered

/-- No data cursor is past `p`, so moving them to `p` is a forward move (40_word_sampler R103). -/
def linesBefore (ls : List Line) (p : Pos) : Bool := ls.all fun l => l.cursor.pos ≤ p

/-- The frames of an output stream, in order. -/
def framesOf (rs : List Record) : List Frame :=
  rs.filterMap fun r => match r with
    | .frame f => some f
    | .marker _ => none
    | .progress _ => none

/-- The reported positions of an output stream, in order. -/
def progressOf (rs : List Record) : List Pos :=
  rs.filterMap fun r => match r with
    | .progress p => some p
    | .frame _ => none
    | .marker _ => none

/-! ## The invariant -/

/-- A run is in progress. -/
def State.running (s : State) : Bool := s.phase != .idle && !s.phase.final

/-- The configuration of a run in progress was accepted: the phase belongs to its variant, the
chip-select cursor is there exactly with `CS_EN`, and `1 <= NDATA <= MAX_DATA` (60_exceptions R201). -/
def State.acceptedOk (s : State) : Bool :=
  !s.running ||
    (s.phase.inVariant s.cfg && s.cs.isSome == cfgCsEn s.cfg && decide (1 ≤ s.data.length) &&
      decide (s.data.length ≤ s.config.maxData))

/-- `CAUSE` is 0 exactly outside `STOPPED` (10_state R35), and no run stops for a backward cursor move
(40_word_sampler R103). -/
def State.causeOk (s : State) : Bool :=
  ((s.phase == .stopped) == (s.cause != 0#8)) && s.cause != Cause.nonmonotonic.code

/-- The clock cursor stands on a buffered active edge (42_edge_decoder R134, 43_cs_decoder R153). -/
def State.onActiveEdge (s : State) : Bool :=
  s.clk.trace.edges.contains s.clk.pos && some (s.clk.trace.level s.clk.pos) == cfgAct s.cfg &&
    s.clk.pos < s.producer.buffered

/-- Chip-select is asserted, and has no transition after its cursor up to the clock cursor
(43_cs_decoder R153). -/
def State.asserted (s : State) : Bool :=
  match s.cs with
  | some c => c.trace.level c.pos == false && decide (c.pos ≤ s.clk.pos) && posLt (some s.clk.pos) (c.trace.nextEdge c.pos)
  | none => false

/-- A word has no bit at or above `NDATA` (40_word_sampler R101). -/
def State.fitsWord (s : State) (w : Word) : Bool := w.toNat < 2 ^ s.data.length

/-- The pending frame of the dual-edge decoder stands at the clock cursor, on a buffered clock edge
(44_dual_edge_decoder R173). -/
def State.pendingOk (s : State) : Bool :=
  if s.pendValid then
    s.pendStart == s.clk.pos && s.clk.trace.edges.contains s.clk.pos && decide (s.clk.pos < s.producer.buffered) &&
      s.fitsWord s.pendVal && decide (s.progress < s.clk.pos)
  else decide (s.progress ≤ s.clk.pos)

/-- What each phase finds when it is entered. In `IDLE` nothing is latched yet: the bindings are those of
`State.reset`, which a new run starts from (70_reset_and_hazards R220, logs 2 and 18). -/
def State.phaseOk (s : State) : Bool :=
  match s.phase with
  | .idle =>
    s.clk == Trace.quiet.cursor && s.cs.isNone && s.data.isEmpty &&
      s.out == [] && s.progress == 0#64 && s.seq == 0#64 && !s.newAssert && !s.pendValid && !s.lastWKnown
  | .eSeek => s.clk.trace.edges.all fun t => decide (t ≤ s.clk.pos) || decide (s.progress < t)
  | .eEdge => s.onActiveEdge && decide (s.progress < s.clk.pos)
  | .eProbe =>
    s.onActiveEdge && decide (s.progress < s.clk.pos) && s.sLatch == s.clk.pos && s.fitsWord s.wLatch &&
      decide (s.config.estClamp < s.estLatch.toNat)
  | .qInit =>
    s.clk.pos == 0#64 && s.cs.all (fun c => c.pos == 0#64) && s.progress == 0#64
  | .qAlign => s.asserted && decide (s.progress ≤ s.clk.pos)
  | .qEdge => s.asserted && s.onActiveEdge && decide (s.progress < s.clk.pos)
  | .qRace =>
    s.asserted && s.onActiveEdge && decide (s.progress < s.clk.pos) && s.sLatch == s.clk.pos && s.fitsWord s.wLatch
  | .qDeassert =>
    s.asserted &&
      match s.cs with
      | some c => s.producer.known (c.trace.nextEdge c.pos) && posLt (some s.progress) (c.trace.nextEdge c.pos)
      | none => false
  | .qReassert =>
    match s.cs with
    | some c => c.trace.level c.pos && decide (s.clk.pos ≤ c.pos) && decide (s.progress ≤ c.pos)
    | none => false
  | .dHead => s.pendingOk
  | .dAdvance => s.pendingOk && (!s.pendValid || s.clk.moreBuffered s.producer)
  | .dProbe => s.pendingOk && s.pendValid && decide (s.config.estClamp < s.estLatch.toNat)
  | .done | .cancelled | .stopped => true

/-- A frame is sound (10_state R38, 30_encoding R88): `start <= end`, a sequence index exactly in
chip-select mode, and no bit of the value at or above `NDATA`. -/
def State.frameOk (s : State) (f : Frame) : Bool :=
  decide (f.startPos ≤ f.endPos) && f.seq.isSome == cfgCsEn s.cfg && s.fitsWord f.value

/-- The output stream is sound: every frame is, and ends before the next one starts (42_edge_decoder
R134, 43_cs_decoder R153, 44_dual_edge_decoder R175); the reported positions rise strictly
(42_edge_decoder R134, 43_cs_decoder R160, 44_dual_edge_decoder R176) and `PROGRESS` is the last of them
(10_state R34, R40), with no frame beyond it. -/
def State.outputOk (s : State) : Bool :=
  (framesOf s.out).all s.frameOk && decide ((framesOf s.out).Pairwise (fun f g => f.endPos < g.startPos)) &&
    (framesOf s.out).all (fun f => decide (f.endPos ≤ s.progress)) &&
    decide ((progressOf s.out).Pairwise (fun p q => p < q)) &&
    s.progress == ((progressOf s.out).getLast?.getD 0#64)

/-- `NEW_ASSERT = 1` goes with `SEQ = 0` (10_state R31). -/
def State.seqOk (s : State) : Bool := !s.newAssert || s.seq == 0#64

/-- The capture is over only when it holds every transition (20_memory R52). -/
def State.captureOk (s : State) : Bool :=
  !s.producer.ended || s.captured.all (fun t => t.fits s.producer.buffered)

/-- The invariant of the machine. -/
structure State.Inv (s : State) : Prop where
  config : s.config.wf
  traces : Memory.wf s = true
  capture : s.captureOk = true
  masks : masksOk s.data = true
  accepted : s.acceptedOk = true
  cause : s.causeOk = true
  lines : linesBefore s.data s.clk.pos = true
  phase : s.phaseOk = true
  output : s.outputOk = true
  seq : s.seqOk = true

/-! ## What can be seen below the buffered length -/

/-- A trace with its transitions at or after `b` left out. -/
def Trace.below (t : Trace) (b : Pos) : Trace := { t with edges := t.edges.filter (fun e => e < b) }

/-- A cursor on the visible part of its trace. -/
def Cursor.below (c : Cursor) (b : Pos) : Cursor := { c with trace := c.trace.below b }

/-- The presented bindings, their traces cut at `b`. -/
def Inputs.below (i : Inputs) (b : Pos) : Inputs :=
  { i with data := i.data.map (fun t => t.map (fun u => u.below b)), clk := i.clk.below b, cs := i.cs.map (fun t => t.below b) }

/-- The state with every transition that is not buffered yet left out of every trace (20_memory R54). -/
def State.visible (s : State) : State :=
  { s with
    inputs := s.inputs.below s.producer.buffered
    clk := s.clk.below s.producer.buffered
    cs := s.cs.map (fun c => c.below s.producer.buffered)
    data := s.data.map (fun l => { l with cursor := l.cursor.below s.producer.buffered }) }

/-! ## Operations that commit -/

/-- The operations that can commit a frame (41_frame_emitter R111: its callers, and itself). -/
def commits (i : Instr) : Bool :=
  match i with
  | .phEEdge | .phEProbe | .phQRace | .phDAdvance | .phDProbe => true
  | .opCommit _ _ _ | .opFinishReal _ _ | .opCloseAndOpen _ => true
  | .cfgEdgeRise | .cfgEdgeFall | .cfgDualEdge | .cfgReservedMode3 | .cfgCsRise | .cfgCsFall
  | .cfgReservedCsDual | .cfgReservedCsMode3 | .cfgReservedBits _ _ => false
  | .phESeek | .phQInit | .phQAlign | .phQEdge | .phQDeassert | .phQReassert | .phDHead | .phIdleStart
  | .phDone | .phCancelled | .phStopped => false
  | .opSampleWord _ | .opEstimateWidth | .opReportProgress _ | .opMarkArrow _ _ | .opSeekActive => false

/-! ## The output stream -/

/-- The state with every marker left out of its output stream (10_state R39). -/
def State.dropMarkers (s : State) : State :=
  { s with out := s.out.filter fun r => match r with
      | .marker _ => false
      | .frame _ => true
      | .progress _ => true }

/-- The index the next frame of the same assertion carries after frames `fs`, when the first of `fs`
carries `next` and each later one counts on by 1 or begins again at 0; `none` when some frame does
neither (43_cs_decoder R160). -/
def nextSeq (next : BitVec 64) : List Frame → Option (BitVec 64)
  | [] => some next
  | f :: fs =>
    match f.seq with
    | some q => if q = next ∨ q = 0#64 then nextSeq (q + 1#64) fs else none
    | none => none

/-- In chip-select mode the frames are numbered from 0, and `SEQ` is the number the next frame of the
assertion carries (10_state R30, 43_cs_decoder R160). -/
def State.numbered (s : State) : Bool :=
  !cfgCsEn s.cfg ||
    match nextSeq 0#64 (framesOf s.out) with
    | some q => s.newAssert || s.seq == q
    | none => false

/-- What 30_encoding R88 and R89 ask of a record of a run with `n` data channels, with chip-select gating
or without. -/
def Record.sound (csEn : Bool) (n : Nat) : Record → Bool
  | .frame f => decide (f.startPos ≤ f.endPos) && f.seq.isSome == csEn && decide (f.value.toNat < 2 ^ n)
  | .marker m =>
    match m.kind with
    | .arrowUp | .arrowDown => m.channel == .clk
    | .dot => (List.range n).any fun i => m.channel == .data i
  | .progress _ => true

/-! ## Frames of a static capture -/

/-- The frames of a dual-edge run over the clock transitions `es` of an ended capture
(44_dual_edge_decoder R177), from the width estimate's state `known`, `w`. -/
def dualFrames (c : Config) (ls : List Line) (known : Bool) (w : Pos) : List Pos → List Frame
  | [] => []
  | [t] =>
    [{ value := wordAt ls t, startPos := t, endPos := BitVec.ofNat 64 (t.toNat + estimateNat c known w - 1), seq := none }]
  | t :: u :: rest =>
    { value := wordAt ls t, startPos := t, endPos := u - 1#64, seq := none } ::
      dualFrames c ls true (frameWidth t (u - 1#64)) (u :: rest)

/-- The frames of a single-polarity run over the clock transitions `es` of an ended capture, the first
of them active (42_edge_decoder R138): each is closed by the next active edge, the last by its
inactive edge if there is one, and by the estimate otherwise. -/
def edgeFrames (c : Config) (ls : List Line) (known : Bool) (w : Pos) : List Pos → List Frame
  | [] => []
  | [t] =>
    [{ value := wordAt ls t, startPos := t, endPos := BitVec.ofNat 64 (t.toNat + estimateNat c known w - 1), seq := none }]
  | [t, i] => [{ value := wordAt ls t, startPos := t, endPos := i - 1#64, seq := none }]
  | t :: _ :: u :: rest =>
    { value := wordAt ls t, startPos := t, endPos := u - 1#64, seq := none } ::
      edgeFrames c ls true (frameWidth t (u - 1#64)) (u :: rest)

end Sys2Proof.Machine
end

