-- ==== Sys2Proof/Certificates/Slice0/Obligations.lean ====
section
/-! DEFINITION. The statements for the provers, each formalising or resting on the rules it names. -/

open Sys2Proof Sys2Proof.Machine

/-! ## Encoding and fetch -/

/-- Decode and encode agree, both ways, for every code and every well-formed operation that has one
(30_encoding, sections 1 and 2). -/
def Obligations.DecodeEncodeAgree : Prop :=
  (∀ (i : Instr) (c : Code), i.wf = true → encode i = some c → decode c = i) ∧
    ∀ c : Code, encode (decode c) = some c ∧ (decode c).wf = true

/-- A few words written out from the spec's tables stand for the rows they belong to. -/
def Obligations.SpecWordsDecode : Prop :=
  decodeTableWord 32 0b000 = some .cfgEdgeRise ∧ decodeTableWord 32 0b101 = some .cfgCsFall ∧
    decodeTableWord 32 0b110 = some .cfgReservedCsDual ∧
    decodeTableWord 32 0x80000003 = some (.cfgReservedBits 0x10000000#29 0b011#3) ∧
    decodeTableWord 8 0x3 = some .phEProbe ∧ decodeTableWord 8 0x7 = some .phQRace ∧
    decodeTableWord 8 0xB = some .phDAdvance ∧ decodeTableWord 8 0xE = some .phCancelled

/-- In the block's turn a step runs the operation `PHASE` selects, and from `IDLE` that is the start step
on the row of the presented configuration word. The turn list (log 4) loses that turn. -/
def Obligations.StepRunsSelectedOperation : Prop :=
  ∀ s t : State,
    (s.schedule = [] ∧ t = s) ∨ (∃ rest, s.schedule = .block :: rest ∧ t = { s with schedule := rest }) →
    step s = exec (decode (.phase s.phase.code)) t ∧
      (s.phase = .idle → step s = exec (decode (.cfg s.inputs.cfg)) t)

/-! ## Reset and start -/

/-- The values the spec gives for the start of a run. -/
def Obligations.ResetValues : Prop :=
  State.reset.phase = .idle ∧ State.reset.clk.pos = 0#64 ∧ State.reset.lastWKnown = false ∧
    State.reset.seq = 0#64 ∧ State.reset.newAssert = false ∧ State.reset.pendValid = false ∧
    State.reset.progress = 0#64 ∧ State.reset.cause = 0#8 ∧ State.reset.out = []

/-- An accepted configuration row latches the word and the bindings, every cursor at 0, line `k` with
mask `1 << k`, and goes to its variant's first phase; nothing else changes but that in dual-edge mode
no frame is pending (log 19).
That a start step runs outside `IDLE` is the model's choice (log 27). -/
def Obligations.AcceptedConfigurationStarts : Prop :=
  ∀ (s : State) (i : Instr) (w : BitVec 32) (p : Phase),
    (i, w, p) ∈ [(Instr.cfgEdgeRise, 0#32, Phase.eSeek), (.cfgEdgeFall, 1#32, .eSeek), (.cfgDualEdge, 2#32, .dHead),
      (.cfgCsRise, 4#32, .qInit), (.cfgCsFall, 5#32, .qInit)] →
    1 ≤ s.inputs.data.reduceOption.length → s.inputs.data.reduceOption.length ≤ s.config.maxData →
    s.inputs.cs.isSome = decide (p = .qInit) →
    exec i s = .next { s with
      cfg := w
      clk := { trace := s.inputs.clk, pos := 0#64 }
      cs := s.inputs.cs.map (fun t => { trace := t, pos := 0#64 })
      data := s.inputs.data.reduceOption.mapIdx (fun k t => { cursor := { trace := t, pos := 0#64 }, mask := 1#16 <<< k })
      phase := p
      pendValid := if p = .dHead then false else s.pendValid }

/-- A reserved configuration row stops the block with its cause, whatever the bindings; nothing is
emitted and nothing but the latch, `CAUSE` and `PHASE` changes (log 10).
That a start step runs outside `IDLE` is the model's choice (log 27). -/
def Obligations.ReservedConfigurationStops : Prop :=
  ∀ (s : State) (i : Instr) (c : BitVec 8),
    (i, c) ∈ [(Instr.cfgReservedMode3, 0x02#8), (.cfgReservedCsDual, 0x03#8), (.cfgReservedCsMode3, 0x02#8)] ∨
      (∃ resv low, i = .cfgReservedBits resv low ∧ i.wf = true ∧ c = 0x01#8) →
    ∃ w, encode i = some (.cfg w) ∧ exec i s = .next { s.latch w with cause := c, phase := .stopped }

/-- The start step on the presented word stops with the first of the six checks that fails, in the
order of their codes, and otherwise enters the first phase of the word's variant.
That a start step runs outside `IDLE` is the model's choice (log 27). -/
def Obligations.StartChecksInCodeOrder : Prop :=
  ∀ s : State,
    let w := s.inputs.cfg.toNat
    let n := s.inputs.data.reduceOption.length
    let stopped := fun c : BitVec 8 =>
      exec .phIdleStart s = .next { s.latch s.inputs.cfg with cause := c, phase := .stopped }
    if w / 8 ≠ 0 then stopped 0x01#8
    else if w % 4 = 3 then stopped 0x02#8
    else if w / 4 = 1 ∧ w % 4 = 2 then stopped 0x03#8
    else if n = 0 then stopped 0x04#8
    else if s.config.maxData < n then stopped 0x05#8
    else if ¬(w / 4 = 1 ↔ s.inputs.cs.isSome = true) then stopped 0x06#8
    else exec .phIdleStart s = .next { s.latch s.inputs.cfg with
      phase := if w = 2 then .dHead else if w / 4 = 1 then .qInit else .eSeek
      pendValid := if w = 2 then false else s.pendValid }

/-- The start step is the row of the presented word: `PH_IDLE_START` and the nine `CFG` rows agree.
That a start step runs outside `IDLE` is the model's choice (log 27). -/
def Obligations.IdleStartIsItsRow : Prop :=
  ∀ s : State, exec .phIdleStart s = exec (decode (.cfg s.inputs.cfg)) s

/-! ## Sampler -/

/-- A sample at a readable position no line has passed moves every data cursor there, appends one dot a
line in order, and returns the word (in `ret`, log 11). -/
def Obligations.SampleWordCompletes : Prop :=
  ∀ (s : State) (p : Pos), linesBefore s.data p = true → s.producer.readable p = true →
    exec (.opSampleWord p) s = .next { s with
      data := linesAt s.data p
      out := s.out ++ dots s.data.length p
      ret := (wordAt s.data p).setWidth 64 }

/-- The value law of a word, seen in the two registers that keep one: after `close_and_open` at any edge
in `PEND_VAL`, and after `Q_EDGE` in `W_LATCH`. Bit `k` is the level of line `k`; bits from `NDATA` up are 0.
Under a `CFG` of another variant this is the model's choice (log 26).
So it is at an `e` that is no clock edge after the pending frame's start (log 28). -/
def Obligations.SampledWordValue : Prop :=
  ∀ s : State, masksOk s.data = true → s.data.length ≤ 16 →
    (∀ e : Pos, linesBefore s.data e = true → s.producer.readable e = true →
      ∃ t, exec (.opCloseAndOpen e) s = .next t ∧
        ∀ k, t.pendVal.getLsbD k = (match s.data[k]? with
          | some l => l.cursor.trace.level e
          | none => false)) ∧
    ∀ a : Level, cfgAct s.cfg = some a → linesBefore s.data s.clk.pos = true → s.producer.readable s.clk.pos = true →
      ∃ t, exec .phQEdge s = .next t ∧
        ∀ k, t.wLatch.getLsbD k = (match s.data[k]? with
          | some l => l.cursor.trace.level s.clk.pos
          | none => false)

/-- A sample behind some line's cursor stops the run with `F_NONMONOTONIC`; one at an unbuffered position
of a live capture holds; on an empty ended capture the run is done. The order is fault, then hold or
done (log 17). -/
def Obligations.SampleWordStopsOrHolds : Prop :=
  ∀ (s : State) (p : Pos), s.data ≠ [] →
    (linesBefore s.data p = false →
      exec (.opSampleWord p) s = .next { s with phase := .stopped, cause := 0x10#8 }) ∧
    (linesBefore s.data p = true → s.producer.readable p = false →
      exec (.opSampleWord p) s = .next (if s.producer.ended then { s with phase := .done } else s))

/-! ## Frame emitter -/

/-- The estimated width is computed without wrap: the seed when no width is known, else the previous
width divided by `EST_DIV`, rounded half up, and at least `EST_FLOOR`. Only `ret` is written (log 11). -/
def Obligations.EstimatedWidthIsExact : Prop :=
  ∀ s : State, s.config.wf →
    ∃ v, exec .opEstimateWidth s = .next { s with ret := v } ∧
      v.toNat = (if s.lastWKnown then
        max s.config.estFloor ((s.lastW.toNat + s.config.estDiv / 2) / s.config.estDiv) else s.config.estSeed)

/-- A commit appends the frame, with `seq` exactly in chip-select mode, and then its progress report;
it records the width `max(1, end - start)`; in chip-select mode `SEQ` counts and `NEW_ASSERT` is cleared.
With a value that has a bit at or above `NDATA` this is the model's choice (log 28). -/
def Obligations.CommitCompletes : Prop :=
  ∀ (s : State) (v : Word) (p q : Pos), p.toNat ≤ q.toNat →
    exec (.opCommit v p q) s = .next { s with
      out := s.out ++
        [.frame { value := v, startPos := p, endPos := q, seq := if cfgCsEn s.cfg then some s.seq else none }, .progress q]
      seq := if cfgCsEn s.cfg then s.seq + 1#64 else s.seq
      newAssert := if cfgCsEn s.cfg then false else s.newAssert
      lastW := BitVec.ofNat 64 (max 1 (q.toNat - p.toNat))
      lastWKnown := true
      progress := q }

/-- A progress report appends its record and sets `PROGRESS`; an arrow appends its marker on the clock, up
for level 1 and down for level 0.
At a position no caller passes this is the model's choice (log 28). -/
def Obligations.ReportAndArrowComplete : Prop :=
  ∀ (s : State) (p : Pos) (l : Level),
    exec (.opReportProgress p) s = .next { s with out := s.out ++ [.progress p], progress := p } ∧
      exec (.opMarkArrow p l) s = .next { s with
        out := s.out ++ [.marker { kind := if l then .arrowUp else .arrowDown, channel := .clk, pos := p }] }

/-! ## Edge-gated decoder -/

/-- `seek_active`, built of one or two advances, moves the clock cursor to the next active edge once it
is buffered; until then it holds, and at the end of the capture the run is done.
Under a `CFG` of another variant this is the model's choice (log 26). -/
def Obligations.SeekActiveReachesNextActive : Prop :=
  ∀ (s : State) (a : Level), Memory.wf s = true → cfgAct s.cfg = some a →
    (∀ t, s.clk.trace.nextActive a s.clk.pos = some t → t < s.producer.buffered →
      exec .opSeekActive s = .next { s with clk := { s.clk with pos := t } }) ∧
    (s.producer.known (s.clk.trace.nextActive a s.clk.pos) = false →
      exec .opSeekActive s = .next (if s.producer.ended then { s with phase := .done } else s))

/-- Phase `E_SEEK`: the seek, and on to `E_EDGE`.
Under a `CFG` of another variant this is the model's choice (log 26). -/
def Obligations.EdgeSeekCompletes : Prop :=
  ∀ (s : State) (a : Level), Memory.wf s = true → cfgAct s.cfg = some a →
    (∀ t, s.clk.trace.nextActive a s.clk.pos = some t → t < s.producer.buffered →
      exec .phESeek s = .next { s with clk := { s.clk with pos := t }, phase := .eEdge }) ∧
    (s.producer.known (s.clk.trace.nextActive a s.clk.pos) = false →
      exec .phESeek s = .next (if s.producer.ended then { s with phase := .done } else s))

/-- `finish_real` with the inactive edge `i` buffered: the frame ends before the next active edge when
that is buffered too, and before `i` otherwise; its end is never before its start at the clock cursor.
Under a `CFG` of another variant, or with `p` not the clock cursor, this is the model's choice (log 26).
So it is with a `w` that has a bit at or above `NDATA` (log 28). -/
def Obligations.FinishRealCompletes : Prop :=
  ∀ (s : State) (w : Word) (p i : Pos),
    s.clk.trace.nextEdge s.clk.pos = some i → i < s.producer.buffered →
    (∀ a, s.clk.trace.nextEdge i = some a → a < s.producer.buffered →
      exec (.opFinishReal w p) s = .next
        { ({ s with clk := { s.clk with pos := a } } : State).commit w p (a - 1#64) with phase := .eEdge } ∧
        (p = s.clk.pos → p ≤ a - 1#64)) ∧
    (s.producer.known (s.clk.trace.nextEdge i) = false →
      exec (.opFinishReal w p) s = .next
        { ({ s with clk := { s.clk with pos := i } } : State).commit w p (i - 1#64) with phase := .eSeek } ∧
        (p = s.clk.pos → p ≤ i - 1#64))

/-- The edge-gated decoder's loop: an accepted start step enters it in `E_SEEK` with the clock cursor at
0, and every step from one of its phases stays in it or leaves through `DONE`, `STOPPED` or, by the
host's cancellation alone, `CANCELLED`.
That a start step runs outside `IDLE` is the model's choice (log 27). So is a phase under a `CFG` of
another variant (log 26). -/
def Obligations.EdgeGatedLoop : Prop :=
  (∀ (s t : State) (i : Instr), i ∈ [.cfgEdgeRise, .cfgEdgeFall] → exec i s = .next t → t.phase ≠ .stopped →
    t.phase = .eSeek ∧ t.clk.pos = 0#64) ∧
  ∀ s t : State, s.phase ∈ [.eSeek, .eEdge, .eProbe] → step s = .next t →
    t.phase ∈ [.eSeek, .eEdge, .eProbe, .done, .stopped] ∨
      t.phase = .cancelled ∧ ∃ rest, s.schedule = .host .cancel :: rest

/-- Phase `E_EDGE` on a readable edge no line has passed: the dots, the arrow, and then the frame closed
by the next active edge, the frame closed by the inactive edge, or the latches for the probe.
Under a `CFG` of another variant this is the model's choice (log 26). -/
def Obligations.EdgePhaseCompletes : Prop :=
  ∀ (s : State) (a : Level), cfgAct s.cfg = some a → linesBefore s.data s.clk.pos = true →
    s.producer.readable s.clk.pos = true →
    let w := wordAt s.data s.clk.pos
    let v : State := { s with
      data := linesAt s.data s.clk.pos
      out := s.out ++ dots s.data.length s.clk.pos ++ [.marker { kind := arrow a, channel := .clk, pos := s.clk.pos }] }
    (s.producer.known (s.clk.trace.nextEdge s.clk.pos) = false →
      exec .phEEdge s = .next { v with
        sLatch := s.clk.pos, wLatch := w, estLatch := s.estimateWidth, phase := .eProbe }) ∧
    ∀ i, s.clk.trace.nextEdge s.clk.pos = some i → i < s.producer.buffered →
      (∀ n, s.clk.trace.nextEdge i = some n → n < s.producer.buffered →
        exec .phEEdge s = .next
          { ({ v with clk := { s.clk with pos := n } } : State).commit w s.clk.pos (n - 1#64) with phase := .eEdge }) ∧
      (s.producer.known (s.clk.trace.nextEdge i) = false →
        exec .phEEdge s = .next
          { ({ v with clk := { s.clk with pos := i } } : State).commit w s.clk.pos (i - 1#64) with phase := .eSeek })

/-- Phase `E_PROBE`: a window past the top, from `S_LATCH` or from the clock cursor, stops the run with `F_POS_OVERFLOW`; a window not yet buffered
holds; an edge in the window is closed by `finish_real`; an empty window gives the provisional frame
`[S, S + e - 1]`, the clamp never binding, with the clock cursor left at `S`.
Under a `CFG` of another variant this is the model's choice (log 26). -/
def Obligations.EdgeProbeCompletes : Prop :=
  (∀ s : State, 2 ^ 64 ≤ s.sLatch.toNat + s.estLatch.toNat ∨ 2 ^ 64 ≤ s.clk.pos.toNat + s.estLatch.toNat →
    exec .phEProbe s = .next { s with phase := .stopped, cause := 0x11#8 }) ∧
  ∀ s : State, s.config.estClamp < s.estLatch.toNat → s.sLatch = s.clk.pos →
    (s.clk.pos.toNat + s.estLatch.toNat < 2 ^ 64 →
      (s.producer.ended = false → s.producer.buffered.toNat ≤ s.clk.pos.toNat + s.estLatch.toNat →
        exec .phEProbe s = .next s) ∧
      (s.producer.ended = true ∨ s.clk.pos.toNat + s.estLatch.toNat < s.producer.buffered.toNat →
        (∀ i, s.clk.trace.nextEdge s.clk.pos = some i → i.toNat ≤ s.clk.pos.toNat + s.estLatch.toNat →
          exec .phEProbe s = exec (.opFinishReal s.wLatch s.sLatch) s) ∧
        ((∀ i, s.clk.trace.nextEdge s.clk.pos = some i → s.clk.pos.toNat + s.estLatch.toNat < i.toNat) →
          exec .phEProbe s = .next
            { s.commit s.wLatch s.sLatch (s.clk.pos + s.estLatch - 1#64) with phase := .eSeek })))

/-! ## Chip-select-gated decoder -/

/-- Phase `Q_INIT`: with chip-select low the assertion begins where the cursors stand; with it high both
cursors go to its falling edge once buffered; otherwise the step holds, or the run is done.
Under a `CFG` of another variant this is the model's choice (log 26). -/
def Obligations.ChipSelectInitCompletes : Prop :=
  ∀ (s : State) (c : Cursor), s.cs = some c →
    (s.producer.readable c.pos = true → c.trace.level c.pos = false →
      exec .phQInit s = .next { s with seq := 0#64, newAssert := true, phase := .qAlign }) ∧
    (∀ f, s.producer.readable c.pos = true → c.trace.level c.pos = true → c.trace.nextEdge c.pos = some f →
      f < s.producer.buffered → s.clk.pos ≤ f →
      exec .phQInit s = .next { s with
        cs := some { c with pos := f }, clk := { s.clk with pos := f }, seq := 0#64, newAssert := true, phase := .qAlign }) ∧
    (s.producer.readable c.pos = false ∨
        c.trace.level c.pos = true ∧ s.producer.known (c.trace.nextEdge c.pos) = false →
      exec .phQInit s = .next (if s.producer.ended then { s with phase := .done } else s))

/-- Phase `Q_ALIGN`: the earlier of the next active clock edge and the chip-select's next edge decides,
chip-select winning a tie; with neither buffered the step holds, or the run is done.
Under a `CFG` of another variant this is the model's choice (log 26). -/
def Obligations.ChipSelectAlignCompletes : Prop :=
  ∀ (s : State) (a : Level) (c : Cursor), cfgAct s.cfg = some a → s.cs = some c →
    (∀ p, s.clk.trace.nextActive a s.clk.pos = some p → p < s.producer.buffered →
      (∀ q, c.trace.nextEdge c.pos = some q → p < q) →
      exec .phQAlign s = .next { s with clk := { s.clk with pos := p }, phase := .qEdge }) ∧
    (∀ q, c.trace.nextEdge c.pos = some q → q < s.producer.buffered →
      (∀ p, s.clk.trace.nextActive a s.clk.pos = some p → q ≤ p) →
      exec .phQAlign s = .next { s with phase := .qDeassert }) ∧
    (s.producer.known (s.clk.trace.nextActive a s.clk.pos) = false →
      s.producer.known (c.trace.nextEdge c.pos) = false →
      exec .phQAlign s = .next (if s.producer.ended then { s with phase := .done } else s))

/-- Phase `Q_EDGE` on a readable edge no line has passed: the dots, the arrow, and the latches.
Under a `CFG` of another variant this is the model's choice (log 26). -/
def Obligations.ChipSelectEdgeCompletes : Prop :=
  ∀ (s : State) (a : Level), cfgAct s.cfg = some a → linesBefore s.data s.clk.pos = true →
    s.producer.readable s.clk.pos = true →
    exec .phQEdge s = .next { s with
      data := linesAt s.data s.clk.pos
      out := s.out ++ dots s.data.length s.clk.pos ++ [.marker { kind := arrow a, channel := .clk, pos := s.clk.pos }]
      sLatch := s.clk.pos
      wLatch := wordAt s.data s.clk.pos
      phase := .qRace }

/-- Phase `Q_RACE`: the frame ends before the earlier of the next active clock edge and the chip-select's
next edge, clipped by chip-select on a tie (an active edge behind the clock cursor, which only an `S_LATCH` away from
it gives, stops the run); with neither buffered it holds however long the capture is
live, and at the end of the capture the run is done without the frame.
Under a `CFG` of another variant this is the model's choice (log 26). -/
def Obligations.ChipSelectRaceCompletes : Prop :=
  ∀ (s : State) (a : Level) (c : Cursor), cfgAct s.cfg = some a → s.cs = some c →
    (∀ p, s.clk.trace.nextActive a s.sLatch = some p → p < s.producer.buffered →
      (∀ q, c.trace.nextEdge c.pos = some q → p < q) →
      (s.clk.pos ≤ p → exec .phQRace s = .next
        { s.commit s.wLatch s.sLatch (p - 1#64) with clk := { s.clk with pos := p }, phase := .qEdge }) ∧
      (p < s.clk.pos → exec .phQRace s = .next { s with phase := .stopped, cause := 0x10#8 })) ∧
    (∀ q, c.trace.nextEdge c.pos = some q → q < s.producer.buffered →
      (∀ p, s.clk.trace.nextActive a s.sLatch = some p → q ≤ p) →
      exec .phQRace s = .next { s.commit s.wLatch s.sLatch (q - 1#64) with phase := .qDeassert }) ∧
    (s.producer.known (s.clk.trace.nextActive a s.sLatch) = false →
      s.producer.known (c.trace.nextEdge c.pos) = false →
      exec .phQRace s = .next (if s.producer.ended then { s with phase := .done } else s))

/-- Phase `Q_DEASSERT`: the chip-select cursor goes to its buffered next edge, which is reported.
Under a `CFG` of another variant this is the model's choice (log 26). -/
def Obligations.ChipSelectDeassertCompletes : Prop :=
  ∀ (s : State) (c : Cursor) (q : Pos), s.cs = some c → c.trace.nextEdge c.pos = some q → q < s.producer.buffered →
    exec .phQDeassert s = .next { s with
      cs := some { c with pos := q }, out := s.out ++ [.progress q], progress := q, phase := .qReassert }

/-- Phase `Q_REASSERT`: at the next assertion edge the clock is resynchronised, the edge is reported, the
sequence index and the known width are reset; otherwise the step holds, or the run is done.
Under a `CFG` of another variant this is the model's choice (log 26). -/
def Obligations.ChipSelectReassertCompletes : Prop :=
  ∀ (s : State) (c : Cursor), s.cs = some c →
    (∀ f, c.trace.nextEdge c.pos = some f → f < s.producer.buffered → s.clk.pos ≤ f →
      exec .phQReassert s = .next { s with
        cs := some { c with pos := f }
        clk := { s.clk with pos := f }
        out := s.out ++ [.progress f]
        progress := f
        seq := 0#64
        newAssert := true
        lastWKnown := false
        phase := .qAlign }) ∧
    (s.producer.known (c.trace.nextEdge c.pos) = false →
      exec .phQReassert s = .next (if s.producer.ended then { s with phase := .done } else s))

/-- Chip-select is active low, in both polarities of the clock: a word is sampled only where chip-select
is 0; the edge `Q_DEASSERT` steps onto leaves it 1, and an assertion begins only where it is 0. -/
def Obligations.ChipSelectIsActiveLow : Prop :=
  ∀ s t : State, s.Inv → blockStep s = .next t →
    (s.phase = .qEdge → ∃ c, s.cs = some c ∧ c.trace.level s.clk.pos = false) ∧
    (s.phase = .qDeassert → ∃ c d, s.cs = some c ∧ t.cs = some d ∧ c.trace.level c.pos = false ∧
      d.trace.level d.pos = true ∧ c.trace.nextEdge c.pos = some d.pos) ∧
    (s.phase ∈ [.qInit, .qReassert] → t.phase = .qAlign → ∃ c d, s.cs = some c ∧ t.cs = some d ∧
      d.trace.level d.pos = false ∧ (c.trace.level c.pos = true → c.trace.nextEdge c.pos = some d.pos))

/-! ## Dual-edge decoder -/

/-- Phase `D_HEAD`: estimation exactly when a frame is pending and no further transition is buffered.
Under a `CFG` of another variant this is the model's choice (log 26). -/
def Obligations.DualHeadCompletes : Prop :=
  ∀ s : State,
    (s.pendValid = true → s.producer.known (s.clk.trace.nextEdge s.clk.pos) = false →
      exec .phDHead s = .next { s with estLatch := s.estimateWidth, phase := .dProbe }) ∧
    (s.pendValid = false ∨ s.producer.known (s.clk.trace.nextEdge s.clk.pos) = true →
      exec .phDHead s = .next { s with phase := .dAdvance })

/-- `close_and_open` at a readable edge no line has passed: the pending frame, if any, is committed to the
sample before; then the dots, the arrow of the level after the edge, and the new pending frame.
Under a `CFG` of another variant this is the model's choice (log 26).
So it is at an `e` that is no clock edge after the pending frame's start (log 28). -/
def Obligations.CloseAndOpenCompletes : Prop :=
  ∀ (s : State) (e : Pos), 1 ≤ e.toNat → linesBefore s.data e = true → s.producer.readable e = true →
    let u := if s.pendValid then s.commit s.pendVal s.pendStart (e - 1#64) else s
    exec (.opCloseAndOpen e) s = .next { u with
      data := linesAt s.data e
      out := u.out ++ dots s.data.length e ++ [.marker { kind := arrow (s.clk.trace.level e), channel := .clk, pos := e }]
      pendVal := wordAt s.data e
      pendStart := e
      pendValid := true
      phase := .dHead }

/-- Phase `D_ADVANCE`: at the next buffered clock edge it closes and opens; otherwise it holds, or the run
is done.
Under a `CFG` of another variant this is the model's choice (log 26). -/
def Obligations.DualAdvanceCompletes : Prop :=
  ∀ s : State,
    (∀ e, s.clk.trace.nextEdge s.clk.pos = some e → e < s.producer.buffered → linesBefore s.data e = true →
      let u : State := if s.pendValid then s.commit s.pendVal s.pendStart (e - 1#64) else s
      exec .phDAdvance s = .next { u with
        clk := { s.clk with pos := e }
        data := linesAt s.data e
        out := u.out ++ dots s.data.length e ++ [.marker { kind := arrow (s.clk.trace.level e), channel := .clk, pos := e }]
        pendVal := wordAt s.data e
        pendStart := e
        pendValid := true
        phase := .dHead }) ∧
    (s.producer.known (s.clk.trace.nextEdge s.clk.pos) = false →
      exec .phDAdvance s = .next (if s.producer.ended then { s with phase := .done } else s))

/-- Phase `D_PROBE`: overflow stops the run; a window not yet buffered holds; an edge in the window is
closed and opened as in `D_ADVANCE`; an empty window commits the pending frame to `s + e - 1`, moves the
clock cursor to `s + e` and leaves nothing pending.
Under a `CFG` of another variant this is the model's choice (log 26). -/
def Obligations.DualProbeCompletes : Prop :=
  ∀ s : State,
    (2 ^ 64 ≤ s.clk.pos.toNat + s.estLatch.toNat →
      exec .phDProbe s = .next { s with phase := .stopped, cause := 0x11#8 }) ∧
    (s.clk.pos.toNat + s.estLatch.toNat < 2 ^ 64 →
      (s.producer.ended = false → s.producer.buffered.toNat ≤ s.clk.pos.toNat + s.estLatch.toNat →
        exec .phDProbe s = .next s) ∧
      (s.producer.ended = true ∨ s.clk.pos.toNat + s.estLatch.toNat < s.producer.buffered.toNat →
        (∀ i, s.clk.trace.nextEdge s.clk.pos = some i → i.toNat ≤ s.clk.pos.toNat + s.estLatch.toNat →
          exec .phDProbe s = exec .phDAdvance s) ∧
        ((∀ i, s.clk.trace.nextEdge s.clk.pos = some i → s.clk.pos.toNat + s.estLatch.toNat < i.toNat) →
          exec .phDProbe s = .next
            { s.commit s.pendVal s.pendStart (s.clk.pos + s.estLatch - 1#64) with
              clk := { s.clk with pos := s.clk.pos + s.estLatch }, pendValid := false, phase := .dHead })))

/-! ## Stops and the environment -/

/-- The three final phases: the block's turn changes nothing, and no turn but a new run changes anything
of the run (the turn list, the producer and the presented inputs are not the run's; log 7). -/
def Obligations.FinalPhasesAreFinal : Prop :=
  (∀ s : State, exec .phDone s = .next s ∧ exec .phCancelled s = .next s ∧ exec .phStopped s = .next s) ∧
    ∀ s t : State, s.phase.final = true → (∀ p rest, s.schedule ≠ .host (.newRun p) :: rest) → step s = .next t →
      t = { s with schedule := t.schedule, producer := t.producer, inputs := t.inputs }

/-- A cancellation at any step boundary of a run that has not ended sets `PHASE` and nothing else. -/
def Obligations.CancelSetsPhaseOnly : Prop :=
  ∀ (s : State) (rest : List Turn), s.schedule = .host .cancel :: rest → s.phase.final = false →
    step s = .next { s with schedule := rest, phase := .cancelled }

/-- The producer's moves change only `B` and `ENDED`: `B` grows by the samples appended while the capture
is live and fits 64 bits; the capture ends once it holds every transition of the run. -/
def Obligations.ProducerMovesOnlyCapture : Prop :=
  ∀ (s : State) (rest : List Turn),
    (∀ n, s.schedule = .host (.append n) :: rest → s.producer.ended = false → 0 < n →
      s.producer.buffered.toNat + n < 2 ^ 64 →
      ∃ b : Pos, b.toNat = s.producer.buffered.toNat + n ∧
        step s = .next { s with schedule := rest, producer := { buffered := b, ended := false } }) ∧
    (s.schedule = .host .endCapture :: rest → (∀ t ∈ s.captured, t.fits s.producer.buffered = true) →
      step s = .next { s with schedule := rest, producer := { s.producer with ended := true } })

/-- A new run after a stop starts from the start state: of the old one nothing is left but what the sink
received, the parameters, and what the host presents (log 18). -/
def Obligations.NewRunStartsFresh : Prop :=
  ∀ (s : State) (p : Producer) (rest : List Turn), s.schedule = .host (.newRun p) :: rest → s.phase.final = true →
    s.inputs.usable p = true →
    step s = .next { State.reset with
      config := s.config, inputs := s.inputs, producer := p, sink := s.sink ++ [s.out], schedule := rest }

/-! ## The whole machine -/

/-- No operation reads the output stream, and every operation only appends to it: run from an empty
stream, it appends the same records and does the same to everything else.
A start row outside `IDLE` and an operation where the spec gives it no rule are covered as the model has
them (logs 26, 27, 28). -/
def Obligations.OutputOnlyAppended : Prop :=
  ∀ (i : Instr) (s : State),
    match exec i { s with out := [] } with
    | .next t => exec i s = .next { t with out := s.out ++ t.out }
    | .fault f => exec i s = .fault f
    | .refused r => exec i s = .refused r

/-- Markers are advisory: no rule reads them, and with every marker dropped from the output stream the
block takes the same step, but for the markers themselves. -/
def Obligations.MarkersAreAdvisory : Prop :=
  ∀ s : State,
    match blockStep s with
    | .next t => ∃ u, blockStep s.dropMarkers = .next u ∧ u.dropMarkers = t.dropMarkers
    | .fault f => blockStep s.dropMarkers = .fault f
    | .refused r => blockStep s.dropMarkers = .refused r

/-- Every record a step of a run appends is sound: a frame has `start <= end`, a sequence index exactly
in chip-select mode and no bit at or above `NDATA`; an arrow is on the clock and a dot on a data
channel. The records before it stay as they were. -/
def Obligations.AppendedRecordsAreSound : Prop :=
  ∀ s t : State, s.Inv → blockStep s = .next t →
    ∃ rs, t.out = s.out ++ rs ∧ ∀ r ∈ rs, r.sound (cfgCsEn t.cfg) t.data.length = true

/-- The producer and the host rewrite nothing of a run: past `IDLE` no step but a new run changes a
latched trace, `B` never shrinks, and once the capture has ended neither `B` nor `ENDED` changes. -/
def Obligations.BufferedDataIsImmutable : Prop :=
  ∀ s t : State, (∀ p rest, s.schedule ≠ .host (.newRun p) :: rest) → step s = .next t →
    (s.phase ≠ .idle → t.traces = s.traces) ∧ s.producer.buffered ≤ t.producer.buffered ∧
      (s.producer.ended = true → t.producer = s.producer)

/-- In chip-select mode the frames of an assertion carry 0, 1, 2, ...: every step keeps the numbering and
`SEQ` as the next frame's index. A step appends at most one frame: it carries 0 when an assertion has
just begun (`NEW_ASSERT = 1`) and the index after the last frame's when none has, and clears the flag;
only `Q_INIT` and `Q_REASSERT`, where an assertion begins, set it. -/
def Obligations.FramesAreNumbered : Prop :=
  ∀ s t : State, s.Inv → s.numbered = true → step s = .next t →
    t.numbered = true ∧
    (cfgCsEn s.cfg = true → ∀ (f : Frame) (rest : List Frame), framesOf t.out = framesOf s.out ++ f :: rest →
      rest = [] ∧ f.seq = (if s.newAssert then some 0#64 else nextSeq 0#64 (framesOf s.out)) ∧ t.newAssert = false) ∧
    (s.newAssert = false → t.newAssert = true → s.phase ∈ [.qInit, .qReassert])

/-- The block never writes its environment, its parameters or a trace: only a start step changes which
traces are read, to the presented ones, and what level a trace has is never changed.
That a start row executed outside `IDLE` latches, so that the presented traces and word replace a run's, is
the model's choice (log 27); in `IDLE` it is the start step's latch. -/
def Obligations.TracesAndEnvironmentReadOnly : Prop :=
  ∀ (i : Instr) (s t : State), exec i s = .next t →
    t.config = s.config ∧ t.inputs = s.inputs ∧ t.producer = s.producer ∧ t.sink = s.sink ∧ t.schedule = s.schedule ∧
    ((encode i = some (.phase 0#4) ∨ ∃ w, encode i = some (.cfg w)) → t.traces = s.inputs.traces) ∧
    (encode i ≠ some (.phase 0#4) → (∀ w, encode i ≠ some (.cfg w)) →
      t.traces = s.traces ∧ t.cfg = s.cfg ∧ t.data.map (fun l => l.mask) = s.data.map (fun l => l.mask))

/-- Which operations write which registers: each of the registers named is left as it was by every
operation not listed with it, on every path to a next state. `SEQ` and `NEW_ASSERT` are written by
`Q_INIT` and `Q_REASSERT`, and by a commit in chip-select mode alone; the width by a commit, its known bit
by `Q_REASSERT` too; `PROGRESS` by a commit, a report and the two phases that report; `PEND_VALID` also by a
start step on the dual-edge word, whichever constructor names that word (log 28). A start row
executed outside `IDLE`, which keeps `CAUSE` where it is accepted, is the model's choice (log 27), and so
is any other operation where the spec gives it no rule (logs 26, 28). -/
def Obligations.RegisterWriters : Prop :=
  ∀ (i : Instr) (s t : State), exec i s = .next t →
    (i ∉ [.phQInit, .phQReassert] → (cfgCsEn s.cfg = false ∨ commits i = false) →
      t.seq = s.seq ∧ t.newAssert = s.newAssert) ∧
    (commits i = false → t.lastW = s.lastW ∧ (i ≠ .phQReassert → t.lastWKnown = s.lastWKnown) ∧
      (i ∉ [.phQDeassert, .phQReassert] → (∀ p, i ≠ .opReportProgress p) → t.progress = s.progress)) ∧
    (i ∉ [.phEEdge, .phQEdge] → t.sLatch = s.sLatch ∧ t.wLatch = s.wLatch) ∧
    (i ∉ [.phEEdge, .phDHead] → t.estLatch = s.estLatch) ∧
    (i ∉ [.phDAdvance, .phDProbe] → (∀ e, i ≠ .opCloseAndOpen e) →
      t.pendVal = s.pendVal ∧ t.pendStart = s.pendStart ∧
        (encode i ≠ some (.cfg 2#32) → i ≠ .phIdleStart → t.pendValid = s.pendValid)) ∧
    (i ≠ .opEstimateWidth → (∀ p, i ≠ .opSampleWord p) → t.ret = s.ret) ∧
    (t.phase ≠ .stopped → t.cause = s.cause)

/-- Stops are precise: outside the start step, an operation that leaves a run stopped or done has changed
nothing else, and a run stops only with one of the two run faults.
Operations where the spec gives them no rule are covered as the model has them (logs 26, 28). -/
def Obligations.StopsArePrecise : Prop :=
  ∀ (i : Instr) (s t : State), encode i ≠ some (.phase 0#4) → (∀ w, encode i ≠ some (.cfg w)) →
    s.phase.final = false → exec i s = .next t →
    (t.phase = .stopped → ∃ c, c ∈ [0x10#8, 0x11#8] ∧ t = { s with phase := .stopped, cause := c }) ∧
    (t.phase = .done → t = { s with phase := .done })

/-- Cursors only move forward in every step of a run, and past `IDLE` in states no run reaches too. Every
request to move one backward stops the run with `F_NONMONOTONIC` and no other effect: a sample behind a
data cursor, by itself, in `close_and_open`, at the clock cursor in `E_EDGE` and `Q_EDGE`, and at the
clock's next edge in `D_ADVANCE` and `D_PROBE`; a synchronisation with a chip-select edge behind the
clock cursor; and in `Q_RACE` an active edge behind it. -/
def Obligations.CursorsMoveForward : Prop :=
  (∀ s t : State, (s.phase = .idle → s.Inv) → (∀ p rest, s.schedule ≠ .host (.newRun p) :: rest) → step s = .next t →
    s.clk.pos ≤ t.clk.pos ∧
    (∀ c d, s.cs = some c → t.cs = some d → c.pos ≤ d.pos) ∧
    ∀ (k : Nat) (l m : Line), s.data[k]? = some l → t.data[k]? = some m → l.cursor.pos ≤ m.cursor.pos) ∧
  (∀ (s : State) (l : Line), l ∈ s.data →
    let stopped : Host.Outcome State Fault Refusal := .next { s with phase := .stopped, cause := 0x10#8 }
    (∀ p, p < l.cursor.pos → exec (.opSampleWord p) s = stopped ∧ exec (.opCloseAndOpen p) s = stopped) ∧
    (∀ a, cfgAct s.cfg = some a → s.clk.pos < l.cursor.pos →
      exec .phEEdge s = stopped ∧ exec .phQEdge s = stopped) ∧
    ∀ e, s.clk.trace.nextEdge s.clk.pos = some e → e < s.producer.buffered → e < l.cursor.pos →
      exec .phDAdvance s = stopped ∧
        (s.clk.pos.toNat + s.estLatch.toNat < 2 ^ 64 → e.toNat ≤ s.clk.pos.toNat + s.estLatch.toNat →
          (s.producer.ended = true ∨ s.clk.pos.toNat + s.estLatch.toNat < s.producer.buffered.toNat) →
          exec .phDProbe s = stopped)) ∧
  (∀ (s : State) (c : Cursor) (f : Pos), s.cs = some c → c.trace.nextEdge c.pos = some f → f < s.producer.buffered →
    f < s.clk.pos →
    exec .phQReassert s = .next { s with phase := .stopped, cause := 0x10#8 } ∧
      (s.producer.readable c.pos = true → c.trace.level c.pos = true →
        exec .phQInit s = .next { s with phase := .stopped, cause := 0x10#8 })) ∧
  ∀ (s : State) (a : Level) (c : Cursor) (p : Pos), cfgAct s.cfg = some a → s.cs = some c →
    s.clk.trace.nextActive a s.sLatch = some p → p < s.producer.buffered →
    (∀ q, c.trace.nextEdge c.pos = some q → p < q) → p < s.clk.pos →
    exec .phQRace s = .next { s with phase := .stopped, cause := 0x10#8 }

/-- Every step, of the block or of the environment, keeps the invariant: canonical traces, the mask list,
sound and disjoint frames in order, strictly rising progress, what each phase relies on, and no stop
for a backward cursor move. -/
def Obligations.StepKeepsInvariant : Prop :=
  ∀ s t : State, s.Inv → step s = .next t → t.Inv

/-- The reset state meets the invariant. -/
def Obligations.ResetMeetsInvariant : Prop := State.reset.Inv

/-- In a state that meets the invariant the block's turn always has a next state; a run stops only from
a width probe, with `F_POS_OVERFLOW`, or in the start step; and outside the eight hold points (and in
`D_ADVANCE` with a frame pending) a step of a run in progress is never a hold. -/
def Obligations.HoldPointsAndNoStuckStep : Prop :=
  ∀ s : State, s.Inv → ∃ t, blockStep s = .next t ∧
    (s.phase ∉ [.idle, .stopped] → t.phase = .stopped → s.phase ∈ [.eProbe, .dProbe] ∧ t.cause = 0x11#8) ∧
    (s.phase ∈ [.eEdge, .qEdge, .qDeassert, .dHead] ∨ s.phase = .dAdvance ∧ s.pendValid = true → t ≠ s)

/-- In a state that meets the invariant a run is done only by a step that needs a transition an ended
capture does not have, in one of the phases that wait for one; in dual-edge mode with nothing pending. -/
def Obligations.DoneOnlyAtCaptureEnd : Prop :=
  ∀ s t : State, s.Inv → blockStep s = .next t → t.phase = .done → s.phase ≠ .done →
    s.producer.ended = true ∧ s.phase ∈ [.eSeek, .qInit, .qAlign, .qRace, .qReassert, .dAdvance] ∧
      (s.phase = .dAdvance → s.pendValid = false)

/-- While the capture is live, no operation depends on a transition that is not buffered, in the block's
turn or executed by itself: with every such transition left out of every trace, it does the same. In
states and with operands the spec gives no rule for, what it does is the model's choice (logs 26, 27, 28). -/
def Obligations.FutureIsHidden : Prop :=
  ∀ (i : Instr) (s : State), Memory.wf s = true → s.producer.ended = false →
    match exec i s with
    | .next t => exec i s.visible = .next t.visible
    | .fault f => exec i s.visible = .fault f
    | .refused r => exec i s.visible = .refused r

/-- What the host presents during a run has no effect on it: past `IDLE` the block's turn does the same
under any presented inputs. -/
def Obligations.PresentedInputsWait : Prop :=
  ∀ (s : State) (i : Inputs), s.phase ≠ .idle →
    match blockStep s with
    | .next t => blockStep { s with inputs := i } = .next { t with inputs := i }
    | .fault f => blockStep { s with inputs := i } = .fault f
    | .refused r => blockStep { s with inputs := i } = .refused r

/-- Once a capture has ended, how long it is beyond its last transition does not matter to the block. -/
def Obligations.StaticLengthIrrelevant : Prop :=
  ∀ (s : State) (b : Pos), s.producer.ended = true → s.producer.buffered ≠ 0#64 → b ≠ 0#64 →
    (∀ t ∈ s.traces, t.fits s.producer.buffered = true ∧ t.fits b = true) →
    match blockStep s with
    | .next t => blockStep { s with producer := { buffered := b, ended := true } } =
        .next { t with producer := { buffered := b, ended := true } }
    | .fault f => blockStep { s with producer := { buffered := b, ended := true } } = .fault f
    | .refused r => blockStep { s with producer := { buffered := b, ended := true } } = .refused r

/-- In chip-select mode the producer's schedule decides only when a step is taken: a step that is no hold
is the same step under any longer capture. -/
def Obligations.ChipSelectIgnoresSchedule : Prop :=
  ∀ (s t : State) (p : Producer),
    s.phase ∈ [.qInit, .qAlign, .qEdge, .qRace, .qDeassert, .qReassert] →
    s.producer.ended = false → s.producer.buffered ≤ p.buffered → blockStep s = .next t → t ≠ s →
    blockStep { s with producer := p } = .next { t with producer := p }

/-- A dual-edge run over a complete capture with clock transitions `t1 < ... < tn` emits exactly the `n`
frames `[ti, t(i+1) - 1]` and the provisional last one, then is done. The capture is no longer than the
10^15 samples up to which 93_implementation_defined I3 lets a claim rest on the estimate's rule. -/
def Obligations.DualStaticRunFrames : Prop :=
  ∀ s : State, s.phase = .idle → s.schedule = [] → s.config = {} → s.inputs.cfg = 2#32 → s.inputs.cs = none →
    1 ≤ s.inputs.lines.length → s.inputs.lines.length ≤ 16 → s.producer.ended = true →
    s.inputs.usable s.producer = true → s.producer.buffered.toNat ≤ 10 ^ 15 → s.lastWKnown = false → s.out = [] →
    ∃ k t, core.run k s = .next t ∧ t.phase = .done ∧
      framesOf t.out = dualFrames s.config (mapLines 0 s.inputs.lines) false s.lastW s.inputs.clk.edges ∧
      (framesOf t.out).length = s.inputs.clk.edges.length

/-- A single-polarity run over a complete capture emits one frame for each active edge after position 0,
closed by the next active edge, the last by its inactive edge or by the estimate, then is done; the
frames are contiguous. The capture's length is bounded as in `DualStaticRunFrames`. -/
def Obligations.EdgeStaticRunFrames : Prop :=
  ∀ (s : State) (a : Level), s.phase = .idle → s.schedule = [] → s.config = {} →
    (s.inputs.cfg = 0#32 ∧ a = true ∨ s.inputs.cfg = 1#32 ∧ a = false) → s.inputs.cs = none →
    1 ≤ s.inputs.lines.length → s.inputs.lines.length ≤ 16 → s.producer.ended = true →
    s.inputs.usable s.producer = true → s.producer.buffered.toNat ≤ 10 ^ 15 → s.lastWKnown = false → s.out = [] →
    let es := if s.inputs.clk.initial = a then s.inputs.clk.edges.drop 1 else s.inputs.clk.edges
    ∃ k t, core.run k s = .next t ∧ t.phase = .done ∧
      framesOf t.out = edgeFrames s.config (mapLines 0 s.inputs.lines) false s.lastW es ∧
      (framesOf t.out).map (fun f => f.startPos) =
        s.inputs.clk.edges.filter (fun e => s.inputs.clk.level e == a) ∧
      ∀ (j : Nat) (f g : Frame), (framesOf t.out)[j]? = some f → (framesOf t.out)[j + 1]? = some g →
        f.endPos + 1#64 = g.startPos
end

