-- ==== Sys2Proof/Laws/State.lean ====
section
/-! SUPPORT. What each register update reads back as: one lemma for each field of each update. -/

namespace Sys2Proof.Machine

@[simp] theorem State.setPhase_config (s : State) (p : Phase) : (s.setPhase p).config = s.config := rfl
@[simp] theorem State.setPhase_inputs (s : State) (p : Phase) : (s.setPhase p).inputs = s.inputs := rfl
@[simp] theorem State.setPhase_producer (s : State) (p : Phase) : (s.setPhase p).producer = s.producer := rfl
@[simp] theorem State.setPhase_cfg (s : State) (p : Phase) : (s.setPhase p).cfg = s.cfg := rfl
@[simp] theorem State.setPhase_clk (s : State) (p : Phase) : (s.setPhase p).clk = s.clk := rfl
@[simp] theorem State.setPhase_cs (s : State) (p : Phase) : (s.setPhase p).cs = s.cs := rfl
@[simp] theorem State.setPhase_data (s : State) (p : Phase) : (s.setPhase p).data = s.data := rfl
@[simp] theorem State.setPhase_phase (s : State) (p : Phase) : (s.setPhase p).phase = p := rfl
@[simp] theorem State.setPhase_lastW (s : State) (p : Phase) : (s.setPhase p).lastW = s.lastW := rfl
@[simp] theorem State.setPhase_lastWKnown (s : State) (p : Phase) : (s.setPhase p).lastWKnown = s.lastWKnown := rfl
@[simp] theorem State.setPhase_seq (s : State) (p : Phase) : (s.setPhase p).seq = s.seq := rfl
@[simp] theorem State.setPhase_newAssert (s : State) (p : Phase) : (s.setPhase p).newAssert = s.newAssert := rfl
@[simp] theorem State.setPhase_sLatch (s : State) (p : Phase) : (s.setPhase p).sLatch = s.sLatch := rfl
@[simp] theorem State.setPhase_wLatch (s : State) (p : Phase) : (s.setPhase p).wLatch = s.wLatch := rfl
@[simp] theorem State.setPhase_estLatch (s : State) (p : Phase) : (s.setPhase p).estLatch = s.estLatch := rfl
@[simp] theorem State.setPhase_pendValid (s : State) (p : Phase) : (s.setPhase p).pendValid = s.pendValid := rfl
@[simp] theorem State.setPhase_pendVal (s : State) (p : Phase) : (s.setPhase p).pendVal = s.pendVal := rfl
@[simp] theorem State.setPhase_pendStart (s : State) (p : Phase) : (s.setPhase p).pendStart = s.pendStart := rfl
@[simp] theorem State.setPhase_progress (s : State) (p : Phase) : (s.setPhase p).progress = s.progress := rfl
@[simp] theorem State.setPhase_cause (s : State) (p : Phase) : (s.setPhase p).cause = s.cause := rfl
@[simp] theorem State.setPhase_out (s : State) (p : Phase) : (s.setPhase p).out = s.out := rfl
@[simp] theorem State.setPhase_sink (s : State) (p : Phase) : (s.setPhase p).sink = s.sink := rfl
@[simp] theorem State.setPhase_schedule (s : State) (p : Phase) : (s.setPhase p).schedule = s.schedule := rfl
@[simp] theorem State.setPhase_ret (s : State) (p : Phase) : (s.setPhase p).ret = s.ret := rfl

@[simp] theorem State.setCause_config (s : State) (c : BitVec 8) : (s.setCause c).config = s.config := rfl
@[simp] theorem State.setCause_inputs (s : State) (c : BitVec 8) : (s.setCause c).inputs = s.inputs := rfl
@[simp] theorem State.setCause_producer (s : State) (c : BitVec 8) : (s.setCause c).producer = s.producer := rfl
@[simp] theorem State.setCause_cfg (s : State) (c : BitVec 8) : (s.setCause c).cfg = s.cfg := rfl
@[simp] theorem State.setCause_clk (s : State) (c : BitVec 8) : (s.setCause c).clk = s.clk := rfl
@[simp] theorem State.setCause_cs (s : State) (c : BitVec 8) : (s.setCause c).cs = s.cs := rfl
@[simp] theorem State.setCause_data (s : State) (c : BitVec 8) : (s.setCause c).data = s.data := rfl
@[simp] theorem State.setCause_phase (s : State) (c : BitVec 8) : (s.setCause c).phase = s.phase := rfl
@[simp] theorem State.setCause_lastW (s : State) (c : BitVec 8) : (s.setCause c).lastW = s.lastW := rfl
@[simp] theorem State.setCause_lastWKnown (s : State) (c : BitVec 8) : (s.setCause c).lastWKnown = s.lastWKnown := rfl
@[simp] theorem State.setCause_seq (s : State) (c : BitVec 8) : (s.setCause c).seq = s.seq := rfl
@[simp] theorem State.setCause_newAssert (s : State) (c : BitVec 8) : (s.setCause c).newAssert = s.newAssert := rfl
@[simp] theorem State.setCause_sLatch (s : State) (c : BitVec 8) : (s.setCause c).sLatch = s.sLatch := rfl
@[simp] theorem State.setCause_wLatch (s : State) (c : BitVec 8) : (s.setCause c).wLatch = s.wLatch := rfl
@[simp] theorem State.setCause_estLatch (s : State) (c : BitVec 8) : (s.setCause c).estLatch = s.estLatch := rfl
@[simp] theorem State.setCause_pendValid (s : State) (c : BitVec 8) : (s.setCause c).pendValid = s.pendValid := rfl
@[simp] theorem State.setCause_pendVal (s : State) (c : BitVec 8) : (s.setCause c).pendVal = s.pendVal := rfl
@[simp] theorem State.setCause_pendStart (s : State) (c : BitVec 8) : (s.setCause c).pendStart = s.pendStart := rfl
@[simp] theorem State.setCause_progress (s : State) (c : BitVec 8) : (s.setCause c).progress = s.progress := rfl
@[simp] theorem State.setCause_cause (s : State) (c : BitVec 8) : (s.setCause c).cause = c := rfl
@[simp] theorem State.setCause_out (s : State) (c : BitVec 8) : (s.setCause c).out = s.out := rfl
@[simp] theorem State.setCause_sink (s : State) (c : BitVec 8) : (s.setCause c).sink = s.sink := rfl
@[simp] theorem State.setCause_schedule (s : State) (c : BitVec 8) : (s.setCause c).schedule = s.schedule := rfl
@[simp] theorem State.setCause_ret (s : State) (c : BitVec 8) : (s.setCause c).ret = s.ret := rfl

@[simp] theorem State.setClk_config (s : State) (c : Cursor) : (s.setClk c).config = s.config := rfl
@[simp] theorem State.setClk_inputs (s : State) (c : Cursor) : (s.setClk c).inputs = s.inputs := rfl
@[simp] theorem State.setClk_producer (s : State) (c : Cursor) : (s.setClk c).producer = s.producer := rfl
@[simp] theorem State.setClk_cfg (s : State) (c : Cursor) : (s.setClk c).cfg = s.cfg := rfl
@[simp] theorem State.setClk_clk (s : State) (c : Cursor) : (s.setClk c).clk = c := rfl
@[simp] theorem State.setClk_cs (s : State) (c : Cursor) : (s.setClk c).cs = s.cs := rfl
@[simp] theorem State.setClk_data (s : State) (c : Cursor) : (s.setClk c).data = s.data := rfl
@[simp] theorem State.setClk_phase (s : State) (c : Cursor) : (s.setClk c).phase = s.phase := rfl
@[simp] theorem State.setClk_lastW (s : State) (c : Cursor) : (s.setClk c).lastW = s.lastW := rfl
@[simp] theorem State.setClk_lastWKnown (s : State) (c : Cursor) : (s.setClk c).lastWKnown = s.lastWKnown := rfl
@[simp] theorem State.setClk_seq (s : State) (c : Cursor) : (s.setClk c).seq = s.seq := rfl
@[simp] theorem State.setClk_newAssert (s : State) (c : Cursor) : (s.setClk c).newAssert = s.newAssert := rfl
@[simp] theorem State.setClk_sLatch (s : State) (c : Cursor) : (s.setClk c).sLatch = s.sLatch := rfl
@[simp] theorem State.setClk_wLatch (s : State) (c : Cursor) : (s.setClk c).wLatch = s.wLatch := rfl
@[simp] theorem State.setClk_estLatch (s : State) (c : Cursor) : (s.setClk c).estLatch = s.estLatch := rfl
@[simp] theorem State.setClk_pendValid (s : State) (c : Cursor) : (s.setClk c).pendValid = s.pendValid := rfl
@[simp] theorem State.setClk_pendVal (s : State) (c : Cursor) : (s.setClk c).pendVal = s.pendVal := rfl
@[simp] theorem State.setClk_pendStart (s : State) (c : Cursor) : (s.setClk c).pendStart = s.pendStart := rfl
@[simp] theorem State.setClk_progress (s : State) (c : Cursor) : (s.setClk c).progress = s.progress := rfl
@[simp] theorem State.setClk_cause (s : State) (c : Cursor) : (s.setClk c).cause = s.cause := rfl
@[simp] theorem State.setClk_out (s : State) (c : Cursor) : (s.setClk c).out = s.out := rfl
@[simp] theorem State.setClk_sink (s : State) (c : Cursor) : (s.setClk c).sink = s.sink := rfl
@[simp] theorem State.setClk_schedule (s : State) (c : Cursor) : (s.setClk c).schedule = s.schedule := rfl
@[simp] theorem State.setClk_ret (s : State) (c : Cursor) : (s.setClk c).ret = s.ret := rfl

@[simp] theorem State.setCs_config (s : State) (c : Option Cursor) : (s.setCs c).config = s.config := rfl
@[simp] theorem State.setCs_inputs (s : State) (c : Option Cursor) : (s.setCs c).inputs = s.inputs := rfl
@[simp] theorem State.setCs_producer (s : State) (c : Option Cursor) : (s.setCs c).producer = s.producer := rfl
@[simp] theorem State.setCs_cfg (s : State) (c : Option Cursor) : (s.setCs c).cfg = s.cfg := rfl
@[simp] theorem State.setCs_clk (s : State) (c : Option Cursor) : (s.setCs c).clk = s.clk := rfl
@[simp] theorem State.setCs_cs (s : State) (c : Option Cursor) : (s.setCs c).cs = c := rfl
@[simp] theorem State.setCs_data (s : State) (c : Option Cursor) : (s.setCs c).data = s.data := rfl
@[simp] theorem State.setCs_phase (s : State) (c : Option Cursor) : (s.setCs c).phase = s.phase := rfl
@[simp] theorem State.setCs_lastW (s : State) (c : Option Cursor) : (s.setCs c).lastW = s.lastW := rfl
@[simp] theorem State.setCs_lastWKnown (s : State) (c : Option Cursor) : (s.setCs c).lastWKnown = s.lastWKnown := rfl
@[simp] theorem State.setCs_seq (s : State) (c : Option Cursor) : (s.setCs c).seq = s.seq := rfl
@[simp] theorem State.setCs_newAssert (s : State) (c : Option Cursor) : (s.setCs c).newAssert = s.newAssert := rfl
@[simp] theorem State.setCs_sLatch (s : State) (c : Option Cursor) : (s.setCs c).sLatch = s.sLatch := rfl
@[simp] theorem State.setCs_wLatch (s : State) (c : Option Cursor) : (s.setCs c).wLatch = s.wLatch := rfl
@[simp] theorem State.setCs_estLatch (s : State) (c : Option Cursor) : (s.setCs c).estLatch = s.estLatch := rfl
@[simp] theorem State.setCs_pendValid (s : State) (c : Option Cursor) : (s.setCs c).pendValid = s.pendValid := rfl
@[simp] theorem State.setCs_pendVal (s : State) (c : Option Cursor) : (s.setCs c).pendVal = s.pendVal := rfl
@[simp] theorem State.setCs_pendStart (s : State) (c : Option Cursor) : (s.setCs c).pendStart = s.pendStart := rfl
@[simp] theorem State.setCs_progress (s : State) (c : Option Cursor) : (s.setCs c).progress = s.progress := rfl
@[simp] theorem State.setCs_cause (s : State) (c : Option Cursor) : (s.setCs c).cause = s.cause := rfl
@[simp] theorem State.setCs_out (s : State) (c : Option Cursor) : (s.setCs c).out = s.out := rfl
@[simp] theorem State.setCs_sink (s : State) (c : Option Cursor) : (s.setCs c).sink = s.sink := rfl
@[simp] theorem State.setCs_schedule (s : State) (c : Option Cursor) : (s.setCs c).schedule = s.schedule := rfl
@[simp] theorem State.setCs_ret (s : State) (c : Option Cursor) : (s.setCs c).ret = s.ret := rfl

@[simp] theorem State.setData_config (s : State) (ls : List Line) : (s.setData ls).config = s.config := rfl
@[simp] theorem State.setData_inputs (s : State) (ls : List Line) : (s.setData ls).inputs = s.inputs := rfl
@[simp] theorem State.setData_producer (s : State) (ls : List Line) : (s.setData ls).producer = s.producer := rfl
@[simp] theorem State.setData_cfg (s : State) (ls : List Line) : (s.setData ls).cfg = s.cfg := rfl
@[simp] theorem State.setData_clk (s : State) (ls : List Line) : (s.setData ls).clk = s.clk := rfl
@[simp] theorem State.setData_cs (s : State) (ls : List Line) : (s.setData ls).cs = s.cs := rfl
@[simp] theorem State.setData_data (s : State) (ls : List Line) : (s.setData ls).data = ls := rfl
@[simp] theorem State.setData_phase (s : State) (ls : List Line) : (s.setData ls).phase = s.phase := rfl
@[simp] theorem State.setData_lastW (s : State) (ls : List Line) : (s.setData ls).lastW = s.lastW := rfl
@[simp] theorem State.setData_lastWKnown (s : State) (ls : List Line) : (s.setData ls).lastWKnown = s.lastWKnown := rfl
@[simp] theorem State.setData_seq (s : State) (ls : List Line) : (s.setData ls).seq = s.seq := rfl
@[simp] theorem State.setData_newAssert (s : State) (ls : List Line) : (s.setData ls).newAssert = s.newAssert := rfl
@[simp] theorem State.setData_sLatch (s : State) (ls : List Line) : (s.setData ls).sLatch = s.sLatch := rfl
@[simp] theorem State.setData_wLatch (s : State) (ls : List Line) : (s.setData ls).wLatch = s.wLatch := rfl
@[simp] theorem State.setData_estLatch (s : State) (ls : List Line) : (s.setData ls).estLatch = s.estLatch := rfl
@[simp] theorem State.setData_pendValid (s : State) (ls : List Line) : (s.setData ls).pendValid = s.pendValid := rfl
@[simp] theorem State.setData_pendVal (s : State) (ls : List Line) : (s.setData ls).pendVal = s.pendVal := rfl
@[simp] theorem State.setData_pendStart (s : State) (ls : List Line) : (s.setData ls).pendStart = s.pendStart := rfl
@[simp] theorem State.setData_progress (s : State) (ls : List Line) : (s.setData ls).progress = s.progress := rfl
@[simp] theorem State.setData_cause (s : State) (ls : List Line) : (s.setData ls).cause = s.cause := rfl
@[simp] theorem State.setData_out (s : State) (ls : List Line) : (s.setData ls).out = s.out := rfl
@[simp] theorem State.setData_sink (s : State) (ls : List Line) : (s.setData ls).sink = s.sink := rfl
@[simp] theorem State.setData_schedule (s : State) (ls : List Line) : (s.setData ls).schedule = s.schedule := rfl
@[simp] theorem State.setData_ret (s : State) (ls : List Line) : (s.setData ls).ret = s.ret := rfl

@[simp] theorem State.setCfg_config (s : State) (w : BitVec 32) : (s.setCfg w).config = s.config := rfl
@[simp] theorem State.setCfg_inputs (s : State) (w : BitVec 32) : (s.setCfg w).inputs = s.inputs := rfl
@[simp] theorem State.setCfg_producer (s : State) (w : BitVec 32) : (s.setCfg w).producer = s.producer := rfl
@[simp] theorem State.setCfg_cfg (s : State) (w : BitVec 32) : (s.setCfg w).cfg = w := rfl
@[simp] theorem State.setCfg_clk (s : State) (w : BitVec 32) : (s.setCfg w).clk = s.clk := rfl
@[simp] theorem State.setCfg_cs (s : State) (w : BitVec 32) : (s.setCfg w).cs = s.cs := rfl
@[simp] theorem State.setCfg_data (s : State) (w : BitVec 32) : (s.setCfg w).data = s.data := rfl
@[simp] theorem State.setCfg_phase (s : State) (w : BitVec 32) : (s.setCfg w).phase = s.phase := rfl
@[simp] theorem State.setCfg_lastW (s : State) (w : BitVec 32) : (s.setCfg w).lastW = s.lastW := rfl
@[simp] theorem State.setCfg_lastWKnown (s : State) (w : BitVec 32) : (s.setCfg w).lastWKnown = s.lastWKnown := rfl
@[simp] theorem State.setCfg_seq (s : State) (w : BitVec 32) : (s.setCfg w).seq = s.seq := rfl
@[simp] theorem State.setCfg_newAssert (s : State) (w : BitVec 32) : (s.setCfg w).newAssert = s.newAssert := rfl
@[simp] theorem State.setCfg_sLatch (s : State) (w : BitVec 32) : (s.setCfg w).sLatch = s.sLatch := rfl
@[simp] theorem State.setCfg_wLatch (s : State) (w : BitVec 32) : (s.setCfg w).wLatch = s.wLatch := rfl
@[simp] theorem State.setCfg_estLatch (s : State) (w : BitVec 32) : (s.setCfg w).estLatch = s.estLatch := rfl
@[simp] theorem State.setCfg_pendValid (s : State) (w : BitVec 32) : (s.setCfg w).pendValid = s.pendValid := rfl
@[simp] theorem State.setCfg_pendVal (s : State) (w : BitVec 32) : (s.setCfg w).pendVal = s.pendVal := rfl
@[simp] theorem State.setCfg_pendStart (s : State) (w : BitVec 32) : (s.setCfg w).pendStart = s.pendStart := rfl
@[simp] theorem State.setCfg_progress (s : State) (w : BitVec 32) : (s.setCfg w).progress = s.progress := rfl
@[simp] theorem State.setCfg_cause (s : State) (w : BitVec 32) : (s.setCfg w).cause = s.cause := rfl
@[simp] theorem State.setCfg_out (s : State) (w : BitVec 32) : (s.setCfg w).out = s.out := rfl
@[simp] theorem State.setCfg_sink (s : State) (w : BitVec 32) : (s.setCfg w).sink = s.sink := rfl
@[simp] theorem State.setCfg_schedule (s : State) (w : BitVec 32) : (s.setCfg w).schedule = s.schedule := rfl
@[simp] theorem State.setCfg_ret (s : State) (w : BitVec 32) : (s.setCfg w).ret = s.ret := rfl

@[simp] theorem State.emit_config (s : State) (rs : List Record) : (s.emit rs).config = s.config := rfl
@[simp] theorem State.emit_inputs (s : State) (rs : List Record) : (s.emit rs).inputs = s.inputs := rfl
@[simp] theorem State.emit_producer (s : State) (rs : List Record) : (s.emit rs).producer = s.producer := rfl
@[simp] theorem State.emit_cfg (s : State) (rs : List Record) : (s.emit rs).cfg = s.cfg := rfl
@[simp] theorem State.emit_clk (s : State) (rs : List Record) : (s.emit rs).clk = s.clk := rfl
@[simp] theorem State.emit_cs (s : State) (rs : List Record) : (s.emit rs).cs = s.cs := rfl
@[simp] theorem State.emit_data (s : State) (rs : List Record) : (s.emit rs).data = s.data := rfl
@[simp] theorem State.emit_phase (s : State) (rs : List Record) : (s.emit rs).phase = s.phase := rfl
@[simp] theorem State.emit_lastW (s : State) (rs : List Record) : (s.emit rs).lastW = s.lastW := rfl
@[simp] theorem State.emit_lastWKnown (s : State) (rs : List Record) : (s.emit rs).lastWKnown = s.lastWKnown := rfl
@[simp] theorem State.emit_seq (s : State) (rs : List Record) : (s.emit rs).seq = s.seq := rfl
@[simp] theorem State.emit_newAssert (s : State) (rs : List Record) : (s.emit rs).newAssert = s.newAssert := rfl
@[simp] theorem State.emit_sLatch (s : State) (rs : List Record) : (s.emit rs).sLatch = s.sLatch := rfl
@[simp] theorem State.emit_wLatch (s : State) (rs : List Record) : (s.emit rs).wLatch = s.wLatch := rfl
@[simp] theorem State.emit_estLatch (s : State) (rs : List Record) : (s.emit rs).estLatch = s.estLatch := rfl
@[simp] theorem State.emit_pendValid (s : State) (rs : List Record) : (s.emit rs).pendValid = s.pendValid := rfl
@[simp] theorem State.emit_pendVal (s : State) (rs : List Record) : (s.emit rs).pendVal = s.pendVal := rfl
@[simp] theorem State.emit_pendStart (s : State) (rs : List Record) : (s.emit rs).pendStart = s.pendStart := rfl
@[simp] theorem State.emit_progress (s : State) (rs : List Record) : (s.emit rs).progress = s.progress := rfl
@[simp] theorem State.emit_cause (s : State) (rs : List Record) : (s.emit rs).cause = s.cause := rfl
@[simp] theorem State.emit_out (s : State) (rs : List Record) : (s.emit rs).out = s.out ++ rs := rfl
@[simp] theorem State.emit_sink (s : State) (rs : List Record) : (s.emit rs).sink = s.sink := rfl
@[simp] theorem State.emit_schedule (s : State) (rs : List Record) : (s.emit rs).schedule = s.schedule := rfl
@[simp] theorem State.emit_ret (s : State) (rs : List Record) : (s.emit rs).ret = s.ret := rfl

@[simp] theorem State.setLastW_config (s : State) (w : Pos) (k : Bool) : (s.setLastW w k).config = s.config := rfl
@[simp] theorem State.setLastW_inputs (s : State) (w : Pos) (k : Bool) : (s.setLastW w k).inputs = s.inputs := rfl
@[simp] theorem State.setLastW_producer (s : State) (w : Pos) (k : Bool) : (s.setLastW w k).producer = s.producer := rfl
@[simp] theorem State.setLastW_cfg (s : State) (w : Pos) (k : Bool) : (s.setLastW w k).cfg = s.cfg := rfl
@[simp] theorem State.setLastW_clk (s : State) (w : Pos) (k : Bool) : (s.setLastW w k).clk = s.clk := rfl
@[simp] theorem State.setLastW_cs (s : State) (w : Pos) (k : Bool) : (s.setLastW w k).cs = s.cs := rfl
@[simp] theorem State.setLastW_data (s : State) (w : Pos) (k : Bool) : (s.setLastW w k).data = s.data := rfl
@[simp] theorem State.setLastW_phase (s : State) (w : Pos) (k : Bool) : (s.setLastW w k).phase = s.phase := rfl
@[simp] theorem State.setLastW_lastW (s : State) (w : Pos) (k : Bool) : (s.setLastW w k).lastW = w := rfl
@[simp] theorem State.setLastW_lastWKnown (s : State) (w : Pos) (k : Bool) : (s.setLastW w k).lastWKnown = k := rfl
@[simp] theorem State.setLastW_seq (s : State) (w : Pos) (k : Bool) : (s.setLastW w k).seq = s.seq := rfl
@[simp] theorem State.setLastW_newAssert (s : State) (w : Pos) (k : Bool) : (s.setLastW w k).newAssert = s.newAssert := rfl
@[simp] theorem State.setLastW_sLatch (s : State) (w : Pos) (k : Bool) : (s.setLastW w k).sLatch = s.sLatch := rfl
@[simp] theorem State.setLastW_wLatch (s : State) (w : Pos) (k : Bool) : (s.setLastW w k).wLatch = s.wLatch := rfl
@[simp] theorem State.setLastW_estLatch (s : State) (w : Pos) (k : Bool) : (s.setLastW w k).estLatch = s.estLatch := rfl
@[simp] theorem State.setLastW_pendValid (s : State) (w : Pos) (k : Bool) : (s.setLastW w k).pendValid = s.pendValid := rfl
@[simp] theorem State.setLastW_pendVal (s : State) (w : Pos) (k : Bool) : (s.setLastW w k).pendVal = s.pendVal := rfl
@[simp] theorem State.setLastW_pendStart (s : State) (w : Pos) (k : Bool) : (s.setLastW w k).pendStart = s.pendStart := rfl
@[simp] theorem State.setLastW_progress (s : State) (w : Pos) (k : Bool) : (s.setLastW w k).progress = s.progress := rfl
@[simp] theorem State.setLastW_cause (s : State) (w : Pos) (k : Bool) : (s.setLastW w k).cause = s.cause := rfl
@[simp] theorem State.setLastW_out (s : State) (w : Pos) (k : Bool) : (s.setLastW w k).out = s.out := rfl
@[simp] theorem State.setLastW_sink (s : State) (w : Pos) (k : Bool) : (s.setLastW w k).sink = s.sink := rfl
@[simp] theorem State.setLastW_schedule (s : State) (w : Pos) (k : Bool) : (s.setLastW w k).schedule = s.schedule := rfl
@[simp] theorem State.setLastW_ret (s : State) (w : Pos) (k : Bool) : (s.setLastW w k).ret = s.ret := rfl

@[simp] theorem State.setSeq_config (s : State) (q : BitVec 64) (f : Bool) : (s.setSeq q f).config = s.config := rfl
@[simp] theorem State.setSeq_inputs (s : State) (q : BitVec 64) (f : Bool) : (s.setSeq q f).inputs = s.inputs := rfl
@[simp] theorem State.setSeq_producer (s : State) (q : BitVec 64) (f : Bool) : (s.setSeq q f).producer = s.producer := rfl
@[simp] theorem State.setSeq_cfg (s : State) (q : BitVec 64) (f : Bool) : (s.setSeq q f).cfg = s.cfg := rfl
@[simp] theorem State.setSeq_clk (s : State) (q : BitVec 64) (f : Bool) : (s.setSeq q f).clk = s.clk := rfl
@[simp] theorem State.setSeq_cs (s : State) (q : BitVec 64) (f : Bool) : (s.setSeq q f).cs = s.cs := rfl
@[simp] theorem State.setSeq_data (s : State) (q : BitVec 64) (f : Bool) : (s.setSeq q f).data = s.data := rfl
@[simp] theorem State.setSeq_phase (s : State) (q : BitVec 64) (f : Bool) : (s.setSeq q f).phase = s.phase := rfl
@[simp] theorem State.setSeq_lastW (s : State) (q : BitVec 64) (f : Bool) : (s.setSeq q f).lastW = s.lastW := rfl
@[simp] theorem State.setSeq_lastWKnown (s : State) (q : BitVec 64) (f : Bool) : (s.setSeq q f).lastWKnown = s.lastWKnown := rfl
@[simp] theorem State.setSeq_seq (s : State) (q : BitVec 64) (f : Bool) : (s.setSeq q f).seq = q := rfl
@[simp] theorem State.setSeq_newAssert (s : State) (q : BitVec 64) (f : Bool) : (s.setSeq q f).newAssert = f := rfl
@[simp] theorem State.setSeq_sLatch (s : State) (q : BitVec 64) (f : Bool) : (s.setSeq q f).sLatch = s.sLatch := rfl
@[simp] theorem State.setSeq_wLatch (s : State) (q : BitVec 64) (f : Bool) : (s.setSeq q f).wLatch = s.wLatch := rfl
@[simp] theorem State.setSeq_estLatch (s : State) (q : BitVec 64) (f : Bool) : (s.setSeq q f).estLatch = s.estLatch := rfl
@[simp] theorem State.setSeq_pendValid (s : State) (q : BitVec 64) (f : Bool) : (s.setSeq q f).pendValid = s.pendValid := rfl
@[simp] theorem State.setSeq_pendVal (s : State) (q : BitVec 64) (f : Bool) : (s.setSeq q f).pendVal = s.pendVal := rfl
@[simp] theorem State.setSeq_pendStart (s : State) (q : BitVec 64) (f : Bool) : (s.setSeq q f).pendStart = s.pendStart := rfl
@[simp] theorem State.setSeq_progress (s : State) (q : BitVec 64) (f : Bool) : (s.setSeq q f).progress = s.progress := rfl
@[simp] theorem State.setSeq_cause (s : State) (q : BitVec 64) (f : Bool) : (s.setSeq q f).cause = s.cause := rfl
@[simp] theorem State.setSeq_out (s : State) (q : BitVec 64) (f : Bool) : (s.setSeq q f).out = s.out := rfl
@[simp] theorem State.setSeq_sink (s : State) (q : BitVec 64) (f : Bool) : (s.setSeq q f).sink = s.sink := rfl
@[simp] theorem State.setSeq_schedule (s : State) (q : BitVec 64) (f : Bool) : (s.setSeq q f).schedule = s.schedule := rfl
@[simp] theorem State.setSeq_ret (s : State) (q : BitVec 64) (f : Bool) : (s.setSeq q f).ret = s.ret := rfl

@[simp] theorem State.setFrameLatch_config (s : State) (p : Pos) (w : Word) : (s.setFrameLatch p w).config = s.config := rfl
@[simp] theorem State.setFrameLatch_inputs (s : State) (p : Pos) (w : Word) : (s.setFrameLatch p w).inputs = s.inputs := rfl
@[simp] theorem State.setFrameLatch_producer (s : State) (p : Pos) (w : Word) : (s.setFrameLatch p w).producer = s.producer := rfl
@[simp] theorem State.setFrameLatch_cfg (s : State) (p : Pos) (w : Word) : (s.setFrameLatch p w).cfg = s.cfg := rfl
@[simp] theorem State.setFrameLatch_clk (s : State) (p : Pos) (w : Word) : (s.setFrameLatch p w).clk = s.clk := rfl
@[simp] theorem State.setFrameLatch_cs (s : State) (p : Pos) (w : Word) : (s.setFrameLatch p w).cs = s.cs := rfl
@[simp] theorem State.setFrameLatch_data (s : State) (p : Pos) (w : Word) : (s.setFrameLatch p w).data = s.data := rfl
@[simp] theorem State.setFrameLatch_phase (s : State) (p : Pos) (w : Word) : (s.setFrameLatch p w).phase = s.phase := rfl
@[simp] theorem State.setFrameLatch_lastW (s : State) (p : Pos) (w : Word) : (s.setFrameLatch p w).lastW = s.lastW := rfl
@[simp] theorem State.setFrameLatch_lastWKnown (s : State) (p : Pos) (w : Word) : (s.setFrameLatch p w).lastWKnown = s.lastWKnown := rfl
@[simp] theorem State.setFrameLatch_seq (s : State) (p : Pos) (w : Word) : (s.setFrameLatch p w).seq = s.seq := rfl
@[simp] theorem State.setFrameLatch_newAssert (s : State) (p : Pos) (w : Word) : (s.setFrameLatch p w).newAssert = s.newAssert := rfl
@[simp] theorem State.setFrameLatch_sLatch (s : State) (p : Pos) (w : Word) : (s.setFrameLatch p w).sLatch = p := rfl
@[simp] theorem State.setFrameLatch_wLatch (s : State) (p : Pos) (w : Word) : (s.setFrameLatch p w).wLatch = w := rfl
@[simp] theorem State.setFrameLatch_estLatch (s : State) (p : Pos) (w : Word) : (s.setFrameLatch p w).estLatch = s.estLatch := rfl
@[simp] theorem State.setFrameLatch_pendValid (s : State) (p : Pos) (w : Word) : (s.setFrameLatch p w).pendValid = s.pendValid := rfl
@[simp] theorem State.setFrameLatch_pendVal (s : State) (p : Pos) (w : Word) : (s.setFrameLatch p w).pendVal = s.pendVal := rfl
@[simp] theorem State.setFrameLatch_pendStart (s : State) (p : Pos) (w : Word) : (s.setFrameLatch p w).pendStart = s.pendStart := rfl
@[simp] theorem State.setFrameLatch_progress (s : State) (p : Pos) (w : Word) : (s.setFrameLatch p w).progress = s.progress := rfl
@[simp] theorem State.setFrameLatch_cause (s : State) (p : Pos) (w : Word) : (s.setFrameLatch p w).cause = s.cause := rfl
@[simp] theorem State.setFrameLatch_out (s : State) (p : Pos) (w : Word) : (s.setFrameLatch p w).out = s.out := rfl
@[simp] theorem State.setFrameLatch_sink (s : State) (p : Pos) (w : Word) : (s.setFrameLatch p w).sink = s.sink := rfl
@[simp] theorem State.setFrameLatch_schedule (s : State) (p : Pos) (w : Word) : (s.setFrameLatch p w).schedule = s.schedule := rfl
@[simp] theorem State.setFrameLatch_ret (s : State) (p : Pos) (w : Word) : (s.setFrameLatch p w).ret = s.ret := rfl

@[simp] theorem State.setEstLatch_config (s : State) (e : Pos) : (s.setEstLatch e).config = s.config := rfl
@[simp] theorem State.setEstLatch_inputs (s : State) (e : Pos) : (s.setEstLatch e).inputs = s.inputs := rfl
@[simp] theorem State.setEstLatch_producer (s : State) (e : Pos) : (s.setEstLatch e).producer = s.producer := rfl
@[simp] theorem State.setEstLatch_cfg (s : State) (e : Pos) : (s.setEstLatch e).cfg = s.cfg := rfl
@[simp] theorem State.setEstLatch_clk (s : State) (e : Pos) : (s.setEstLatch e).clk = s.clk := rfl
@[simp] theorem State.setEstLatch_cs (s : State) (e : Pos) : (s.setEstLatch e).cs = s.cs := rfl
@[simp] theorem State.setEstLatch_data (s : State) (e : Pos) : (s.setEstLatch e).data = s.data := rfl
@[simp] theorem State.setEstLatch_phase (s : State) (e : Pos) : (s.setEstLatch e).phase = s.phase := rfl
@[simp] theorem State.setEstLatch_lastW (s : State) (e : Pos) : (s.setEstLatch e).lastW = s.lastW := rfl
@[simp] theorem State.setEstLatch_lastWKnown (s : State) (e : Pos) : (s.setEstLatch e).lastWKnown = s.lastWKnown := rfl
@[simp] theorem State.setEstLatch_seq (s : State) (e : Pos) : (s.setEstLatch e).seq = s.seq := rfl
@[simp] theorem State.setEstLatch_newAssert (s : State) (e : Pos) : (s.setEstLatch e).newAssert = s.newAssert := rfl
@[simp] theorem State.setEstLatch_sLatch (s : State) (e : Pos) : (s.setEstLatch e).sLatch = s.sLatch := rfl
@[simp] theorem State.setEstLatch_wLatch (s : State) (e : Pos) : (s.setEstLatch e).wLatch = s.wLatch := rfl
@[simp] theorem State.setEstLatch_estLatch (s : State) (e : Pos) : (s.setEstLatch e).estLatch = e := rfl
@[simp] theorem State.setEstLatch_pendValid (s : State) (e : Pos) : (s.setEstLatch e).pendValid = s.pendValid := rfl
@[simp] theorem State.setEstLatch_pendVal (s : State) (e : Pos) : (s.setEstLatch e).pendVal = s.pendVal := rfl
@[simp] theorem State.setEstLatch_pendStart (s : State) (e : Pos) : (s.setEstLatch e).pendStart = s.pendStart := rfl
@[simp] theorem State.setEstLatch_progress (s : State) (e : Pos) : (s.setEstLatch e).progress = s.progress := rfl
@[simp] theorem State.setEstLatch_cause (s : State) (e : Pos) : (s.setEstLatch e).cause = s.cause := rfl
@[simp] theorem State.setEstLatch_out (s : State) (e : Pos) : (s.setEstLatch e).out = s.out := rfl
@[simp] theorem State.setEstLatch_sink (s : State) (e : Pos) : (s.setEstLatch e).sink = s.sink := rfl
@[simp] theorem State.setEstLatch_schedule (s : State) (e : Pos) : (s.setEstLatch e).schedule = s.schedule := rfl
@[simp] theorem State.setEstLatch_ret (s : State) (e : Pos) : (s.setEstLatch e).ret = s.ret := rfl

@[simp] theorem State.setPendValid_config (s : State) (v : Bool) : (s.setPendValid v).config = s.config := rfl
@[simp] theorem State.setPendValid_inputs (s : State) (v : Bool) : (s.setPendValid v).inputs = s.inputs := rfl
@[simp] theorem State.setPendValid_producer (s : State) (v : Bool) : (s.setPendValid v).producer = s.producer := rfl
@[simp] theorem State.setPendValid_cfg (s : State) (v : Bool) : (s.setPendValid v).cfg = s.cfg := rfl
@[simp] theorem State.setPendValid_clk (s : State) (v : Bool) : (s.setPendValid v).clk = s.clk := rfl
@[simp] theorem State.setPendValid_cs (s : State) (v : Bool) : (s.setPendValid v).cs = s.cs := rfl
@[simp] theorem State.setPendValid_data (s : State) (v : Bool) : (s.setPendValid v).data = s.data := rfl
@[simp] theorem State.setPendValid_phase (s : State) (v : Bool) : (s.setPendValid v).phase = s.phase := rfl
@[simp] theorem State.setPendValid_lastW (s : State) (v : Bool) : (s.setPendValid v).lastW = s.lastW := rfl
@[simp] theorem State.setPendValid_lastWKnown (s : State) (v : Bool) : (s.setPendValid v).lastWKnown = s.lastWKnown := rfl
@[simp] theorem State.setPendValid_seq (s : State) (v : Bool) : (s.setPendValid v).seq = s.seq := rfl
@[simp] theorem State.setPendValid_newAssert (s : State) (v : Bool) : (s.setPendValid v).newAssert = s.newAssert := rfl
@[simp] theorem State.setPendValid_sLatch (s : State) (v : Bool) : (s.setPendValid v).sLatch = s.sLatch := rfl
@[simp] theorem State.setPendValid_wLatch (s : State) (v : Bool) : (s.setPendValid v).wLatch = s.wLatch := rfl
@[simp] theorem State.setPendValid_estLatch (s : State) (v : Bool) : (s.setPendValid v).estLatch = s.estLatch := rfl
@[simp] theorem State.setPendValid_pendValid (s : State) (v : Bool) : (s.setPendValid v).pendValid = v := rfl
@[simp] theorem State.setPendValid_pendVal (s : State) (v : Bool) : (s.setPendValid v).pendVal = s.pendVal := rfl
@[simp] theorem State.setPendValid_pendStart (s : State) (v : Bool) : (s.setPendValid v).pendStart = s.pendStart := rfl
@[simp] theorem State.setPendValid_progress (s : State) (v : Bool) : (s.setPendValid v).progress = s.progress := rfl
@[simp] theorem State.setPendValid_cause (s : State) (v : Bool) : (s.setPendValid v).cause = s.cause := rfl
@[simp] theorem State.setPendValid_out (s : State) (v : Bool) : (s.setPendValid v).out = s.out := rfl
@[simp] theorem State.setPendValid_sink (s : State) (v : Bool) : (s.setPendValid v).sink = s.sink := rfl
@[simp] theorem State.setPendValid_schedule (s : State) (v : Bool) : (s.setPendValid v).schedule = s.schedule := rfl
@[simp] theorem State.setPendValid_ret (s : State) (v : Bool) : (s.setPendValid v).ret = s.ret := rfl

@[simp] theorem State.setPending_config (s : State) (w : Word) (p : Pos) : (s.setPending w p).config = s.config := rfl
@[simp] theorem State.setPending_inputs (s : State) (w : Word) (p : Pos) : (s.setPending w p).inputs = s.inputs := rfl
@[simp] theorem State.setPending_producer (s : State) (w : Word) (p : Pos) : (s.setPending w p).producer = s.producer := rfl
@[simp] theorem State.setPending_cfg (s : State) (w : Word) (p : Pos) : (s.setPending w p).cfg = s.cfg := rfl
@[simp] theorem State.setPending_clk (s : State) (w : Word) (p : Pos) : (s.setPending w p).clk = s.clk := rfl
@[simp] theorem State.setPending_cs (s : State) (w : Word) (p : Pos) : (s.setPending w p).cs = s.cs := rfl
@[simp] theorem State.setPending_data (s : State) (w : Word) (p : Pos) : (s.setPending w p).data = s.data := rfl
@[simp] theorem State.setPending_phase (s : State) (w : Word) (p : Pos) : (s.setPending w p).phase = s.phase := rfl
@[simp] theorem State.setPending_lastW (s : State) (w : Word) (p : Pos) : (s.setPending w p).lastW = s.lastW := rfl
@[simp] theorem State.setPending_lastWKnown (s : State) (w : Word) (p : Pos) : (s.setPending w p).lastWKnown = s.lastWKnown := rfl
@[simp] theorem State.setPending_seq (s : State) (w : Word) (p : Pos) : (s.setPending w p).seq = s.seq := rfl
@[simp] theorem State.setPending_newAssert (s : State) (w : Word) (p : Pos) : (s.setPending w p).newAssert = s.newAssert := rfl
@[simp] theorem State.setPending_sLatch (s : State) (w : Word) (p : Pos) : (s.setPending w p).sLatch = s.sLatch := rfl
@[simp] theorem State.setPending_wLatch (s : State) (w : Word) (p : Pos) : (s.setPending w p).wLatch = s.wLatch := rfl
@[simp] theorem State.setPending_estLatch (s : State) (w : Word) (p : Pos) : (s.setPending w p).estLatch = s.estLatch := rfl
@[simp] theorem State.setPending_pendValid (s : State) (w : Word) (p : Pos) : (s.setPending w p).pendValid = s.pendValid := rfl
@[simp] theorem State.setPending_pendVal (s : State) (w : Word) (p : Pos) : (s.setPending w p).pendVal = w := rfl
@[simp] theorem State.setPending_pendStart (s : State) (w : Word) (p : Pos) : (s.setPending w p).pendStart = p := rfl
@[simp] theorem State.setPending_progress (s : State) (w : Word) (p : Pos) : (s.setPending w p).progress = s.progress := rfl
@[simp] theorem State.setPending_cause (s : State) (w : Word) (p : Pos) : (s.setPending w p).cause = s.cause := rfl
@[simp] theorem State.setPending_out (s : State) (w : Word) (p : Pos) : (s.setPending w p).out = s.out := rfl
@[simp] theorem State.setPending_sink (s : State) (w : Word) (p : Pos) : (s.setPending w p).sink = s.sink := rfl
@[simp] theorem State.setPending_schedule (s : State) (w : Word) (p : Pos) : (s.setPending w p).schedule = s.schedule := rfl
@[simp] theorem State.setPending_ret (s : State) (w : Word) (p : Pos) : (s.setPending w p).ret = s.ret := rfl

@[simp] theorem State.setProgress_config (s : State) (p : Pos) : (s.setProgress p).config = s.config := rfl
@[simp] theorem State.setProgress_inputs (s : State) (p : Pos) : (s.setProgress p).inputs = s.inputs := rfl
@[simp] theorem State.setProgress_producer (s : State) (p : Pos) : (s.setProgress p).producer = s.producer := rfl
@[simp] theorem State.setProgress_cfg (s : State) (p : Pos) : (s.setProgress p).cfg = s.cfg := rfl
@[simp] theorem State.setProgress_clk (s : State) (p : Pos) : (s.setProgress p).clk = s.clk := rfl
@[simp] theorem State.setProgress_cs (s : State) (p : Pos) : (s.setProgress p).cs = s.cs := rfl
@[simp] theorem State.setProgress_data (s : State) (p : Pos) : (s.setProgress p).data = s.data := rfl
@[simp] theorem State.setProgress_phase (s : State) (p : Pos) : (s.setProgress p).phase = s.phase := rfl
@[simp] theorem State.setProgress_lastW (s : State) (p : Pos) : (s.setProgress p).lastW = s.lastW := rfl
@[simp] theorem State.setProgress_lastWKnown (s : State) (p : Pos) : (s.setProgress p).lastWKnown = s.lastWKnown := rfl
@[simp] theorem State.setProgress_seq (s : State) (p : Pos) : (s.setProgress p).seq = s.seq := rfl
@[simp] theorem State.setProgress_newAssert (s : State) (p : Pos) : (s.setProgress p).newAssert = s.newAssert := rfl
@[simp] theorem State.setProgress_sLatch (s : State) (p : Pos) : (s.setProgress p).sLatch = s.sLatch := rfl
@[simp] theorem State.setProgress_wLatch (s : State) (p : Pos) : (s.setProgress p).wLatch = s.wLatch := rfl
@[simp] theorem State.setProgress_estLatch (s : State) (p : Pos) : (s.setProgress p).estLatch = s.estLatch := rfl
@[simp] theorem State.setProgress_pendValid (s : State) (p : Pos) : (s.setProgress p).pendValid = s.pendValid := rfl
@[simp] theorem State.setProgress_pendVal (s : State) (p : Pos) : (s.setProgress p).pendVal = s.pendVal := rfl
@[simp] theorem State.setProgress_pendStart (s : State) (p : Pos) : (s.setProgress p).pendStart = s.pendStart := rfl
@[simp] theorem State.setProgress_progress (s : State) (p : Pos) : (s.setProgress p).progress = p := rfl
@[simp] theorem State.setProgress_cause (s : State) (p : Pos) : (s.setProgress p).cause = s.cause := rfl
@[simp] theorem State.setProgress_out (s : State) (p : Pos) : (s.setProgress p).out = s.out := rfl
@[simp] theorem State.setProgress_sink (s : State) (p : Pos) : (s.setProgress p).sink = s.sink := rfl
@[simp] theorem State.setProgress_schedule (s : State) (p : Pos) : (s.setProgress p).schedule = s.schedule := rfl
@[simp] theorem State.setProgress_ret (s : State) (p : Pos) : (s.setProgress p).ret = s.ret := rfl

@[simp] theorem State.setProducer_config (s : State) (p : Producer) : (s.setProducer p).config = s.config := rfl
@[simp] theorem State.setProducer_inputs (s : State) (p : Producer) : (s.setProducer p).inputs = s.inputs := rfl
@[simp] theorem State.setProducer_producer (s : State) (p : Producer) : (s.setProducer p).producer = p := rfl
@[simp] theorem State.setProducer_cfg (s : State) (p : Producer) : (s.setProducer p).cfg = s.cfg := rfl
@[simp] theorem State.setProducer_clk (s : State) (p : Producer) : (s.setProducer p).clk = s.clk := rfl
@[simp] theorem State.setProducer_cs (s : State) (p : Producer) : (s.setProducer p).cs = s.cs := rfl
@[simp] theorem State.setProducer_data (s : State) (p : Producer) : (s.setProducer p).data = s.data := rfl
@[simp] theorem State.setProducer_phase (s : State) (p : Producer) : (s.setProducer p).phase = s.phase := rfl
@[simp] theorem State.setProducer_lastW (s : State) (p : Producer) : (s.setProducer p).lastW = s.lastW := rfl
@[simp] theorem State.setProducer_lastWKnown (s : State) (p : Producer) : (s.setProducer p).lastWKnown = s.lastWKnown := rfl
@[simp] theorem State.setProducer_seq (s : State) (p : Producer) : (s.setProducer p).seq = s.seq := rfl
@[simp] theorem State.setProducer_newAssert (s : State) (p : Producer) : (s.setProducer p).newAssert = s.newAssert := rfl
@[simp] theorem State.setProducer_sLatch (s : State) (p : Producer) : (s.setProducer p).sLatch = s.sLatch := rfl
@[simp] theorem State.setProducer_wLatch (s : State) (p : Producer) : (s.setProducer p).wLatch = s.wLatch := rfl
@[simp] theorem State.setProducer_estLatch (s : State) (p : Producer) : (s.setProducer p).estLatch = s.estLatch := rfl
@[simp] theorem State.setProducer_pendValid (s : State) (p : Producer) : (s.setProducer p).pendValid = s.pendValid := rfl
@[simp] theorem State.setProducer_pendVal (s : State) (p : Producer) : (s.setProducer p).pendVal = s.pendVal := rfl
@[simp] theorem State.setProducer_pendStart (s : State) (p : Producer) : (s.setProducer p).pendStart = s.pendStart := rfl
@[simp] theorem State.setProducer_progress (s : State) (p : Producer) : (s.setProducer p).progress = s.progress := rfl
@[simp] theorem State.setProducer_cause (s : State) (p : Producer) : (s.setProducer p).cause = s.cause := rfl
@[simp] theorem State.setProducer_out (s : State) (p : Producer) : (s.setProducer p).out = s.out := rfl
@[simp] theorem State.setProducer_sink (s : State) (p : Producer) : (s.setProducer p).sink = s.sink := rfl
@[simp] theorem State.setProducer_schedule (s : State) (p : Producer) : (s.setProducer p).schedule = s.schedule := rfl
@[simp] theorem State.setProducer_ret (s : State) (p : Producer) : (s.setProducer p).ret = s.ret := rfl

@[simp] theorem State.setInputs_config (s : State) (i : Inputs) : (s.setInputs i).config = s.config := rfl
@[simp] theorem State.setInputs_inputs (s : State) (i : Inputs) : (s.setInputs i).inputs = i := rfl
@[simp] theorem State.setInputs_producer (s : State) (i : Inputs) : (s.setInputs i).producer = s.producer := rfl
@[simp] theorem State.setInputs_cfg (s : State) (i : Inputs) : (s.setInputs i).cfg = s.cfg := rfl
@[simp] theorem State.setInputs_clk (s : State) (i : Inputs) : (s.setInputs i).clk = s.clk := rfl
@[simp] theorem State.setInputs_cs (s : State) (i : Inputs) : (s.setInputs i).cs = s.cs := rfl
@[simp] theorem State.setInputs_data (s : State) (i : Inputs) : (s.setInputs i).data = s.data := rfl
@[simp] theorem State.setInputs_phase (s : State) (i : Inputs) : (s.setInputs i).phase = s.phase := rfl
@[simp] theorem State.setInputs_lastW (s : State) (i : Inputs) : (s.setInputs i).lastW = s.lastW := rfl
@[simp] theorem State.setInputs_lastWKnown (s : State) (i : Inputs) : (s.setInputs i).lastWKnown = s.lastWKnown := rfl
@[simp] theorem State.setInputs_seq (s : State) (i : Inputs) : (s.setInputs i).seq = s.seq := rfl
@[simp] theorem State.setInputs_newAssert (s : State) (i : Inputs) : (s.setInputs i).newAssert = s.newAssert := rfl
@[simp] theorem State.setInputs_sLatch (s : State) (i : Inputs) : (s.setInputs i).sLatch = s.sLatch := rfl
@[simp] theorem State.setInputs_wLatch (s : State) (i : Inputs) : (s.setInputs i).wLatch = s.wLatch := rfl
@[simp] theorem State.setInputs_estLatch (s : State) (i : Inputs) : (s.setInputs i).estLatch = s.estLatch := rfl
@[simp] theorem State.setInputs_pendValid (s : State) (i : Inputs) : (s.setInputs i).pendValid = s.pendValid := rfl
@[simp] theorem State.setInputs_pendVal (s : State) (i : Inputs) : (s.setInputs i).pendVal = s.pendVal := rfl
@[simp] theorem State.setInputs_pendStart (s : State) (i : Inputs) : (s.setInputs i).pendStart = s.pendStart := rfl
@[simp] theorem State.setInputs_progress (s : State) (i : Inputs) : (s.setInputs i).progress = s.progress := rfl
@[simp] theorem State.setInputs_cause (s : State) (i : Inputs) : (s.setInputs i).cause = s.cause := rfl
@[simp] theorem State.setInputs_out (s : State) (i : Inputs) : (s.setInputs i).out = s.out := rfl
@[simp] theorem State.setInputs_sink (s : State) (i : Inputs) : (s.setInputs i).sink = s.sink := rfl
@[simp] theorem State.setInputs_schedule (s : State) (i : Inputs) : (s.setInputs i).schedule = s.schedule := rfl
@[simp] theorem State.setInputs_ret (s : State) (i : Inputs) : (s.setInputs i).ret = s.ret := rfl

@[simp] theorem State.setSchedule_config (s : State) (ts : List Turn) : (s.setSchedule ts).config = s.config := rfl
@[simp] theorem State.setSchedule_inputs (s : State) (ts : List Turn) : (s.setSchedule ts).inputs = s.inputs := rfl
@[simp] theorem State.setSchedule_producer (s : State) (ts : List Turn) : (s.setSchedule ts).producer = s.producer := rfl
@[simp] theorem State.setSchedule_cfg (s : State) (ts : List Turn) : (s.setSchedule ts).cfg = s.cfg := rfl
@[simp] theorem State.setSchedule_clk (s : State) (ts : List Turn) : (s.setSchedule ts).clk = s.clk := rfl
@[simp] theorem State.setSchedule_cs (s : State) (ts : List Turn) : (s.setSchedule ts).cs = s.cs := rfl
@[simp] theorem State.setSchedule_data (s : State) (ts : List Turn) : (s.setSchedule ts).data = s.data := rfl
@[simp] theorem State.setSchedule_phase (s : State) (ts : List Turn) : (s.setSchedule ts).phase = s.phase := rfl
@[simp] theorem State.setSchedule_lastW (s : State) (ts : List Turn) : (s.setSchedule ts).lastW = s.lastW := rfl
@[simp] theorem State.setSchedule_lastWKnown (s : State) (ts : List Turn) : (s.setSchedule ts).lastWKnown = s.lastWKnown := rfl
@[simp] theorem State.setSchedule_seq (s : State) (ts : List Turn) : (s.setSchedule ts).seq = s.seq := rfl
@[simp] theorem State.setSchedule_newAssert (s : State) (ts : List Turn) : (s.setSchedule ts).newAssert = s.newAssert := rfl
@[simp] theorem State.setSchedule_sLatch (s : State) (ts : List Turn) : (s.setSchedule ts).sLatch = s.sLatch := rfl
@[simp] theorem State.setSchedule_wLatch (s : State) (ts : List Turn) : (s.setSchedule ts).wLatch = s.wLatch := rfl
@[simp] theorem State.setSchedule_estLatch (s : State) (ts : List Turn) : (s.setSchedule ts).estLatch = s.estLatch := rfl
@[simp] theorem State.setSchedule_pendValid (s : State) (ts : List Turn) : (s.setSchedule ts).pendValid = s.pendValid := rfl
@[simp] theorem State.setSchedule_pendVal (s : State) (ts : List Turn) : (s.setSchedule ts).pendVal = s.pendVal := rfl
@[simp] theorem State.setSchedule_pendStart (s : State) (ts : List Turn) : (s.setSchedule ts).pendStart = s.pendStart := rfl
@[simp] theorem State.setSchedule_progress (s : State) (ts : List Turn) : (s.setSchedule ts).progress = s.progress := rfl
@[simp] theorem State.setSchedule_cause (s : State) (ts : List Turn) : (s.setSchedule ts).cause = s.cause := rfl
@[simp] theorem State.setSchedule_out (s : State) (ts : List Turn) : (s.setSchedule ts).out = s.out := rfl
@[simp] theorem State.setSchedule_sink (s : State) (ts : List Turn) : (s.setSchedule ts).sink = s.sink := rfl
@[simp] theorem State.setSchedule_schedule (s : State) (ts : List Turn) : (s.setSchedule ts).schedule = ts := rfl
@[simp] theorem State.setSchedule_ret (s : State) (ts : List Turn) : (s.setSchedule ts).ret = s.ret := rfl

@[simp] theorem State.setRet_config (s : State) (v : BitVec 64) : (s.setRet v).config = s.config := rfl
@[simp] theorem State.setRet_inputs (s : State) (v : BitVec 64) : (s.setRet v).inputs = s.inputs := rfl
@[simp] theorem State.setRet_producer (s : State) (v : BitVec 64) : (s.setRet v).producer = s.producer := rfl
@[simp] theorem State.setRet_cfg (s : State) (v : BitVec 64) : (s.setRet v).cfg = s.cfg := rfl
@[simp] theorem State.setRet_clk (s : State) (v : BitVec 64) : (s.setRet v).clk = s.clk := rfl
@[simp] theorem State.setRet_cs (s : State) (v : BitVec 64) : (s.setRet v).cs = s.cs := rfl
@[simp] theorem State.setRet_data (s : State) (v : BitVec 64) : (s.setRet v).data = s.data := rfl
@[simp] theorem State.setRet_phase (s : State) (v : BitVec 64) : (s.setRet v).phase = s.phase := rfl
@[simp] theorem State.setRet_lastW (s : State) (v : BitVec 64) : (s.setRet v).lastW = s.lastW := rfl
@[simp] theorem State.setRet_lastWKnown (s : State) (v : BitVec 64) : (s.setRet v).lastWKnown = s.lastWKnown := rfl
@[simp] theorem State.setRet_seq (s : State) (v : BitVec 64) : (s.setRet v).seq = s.seq := rfl
@[simp] theorem State.setRet_newAssert (s : State) (v : BitVec 64) : (s.setRet v).newAssert = s.newAssert := rfl
@[simp] theorem State.setRet_sLatch (s : State) (v : BitVec 64) : (s.setRet v).sLatch = s.sLatch := rfl
@[simp] theorem State.setRet_wLatch (s : State) (v : BitVec 64) : (s.setRet v).wLatch = s.wLatch := rfl
@[simp] theorem State.setRet_estLatch (s : State) (v : BitVec 64) : (s.setRet v).estLatch = s.estLatch := rfl
@[simp] theorem State.setRet_pendValid (s : State) (v : BitVec 64) : (s.setRet v).pendValid = s.pendValid := rfl
@[simp] theorem State.setRet_pendVal (s : State) (v : BitVec 64) : (s.setRet v).pendVal = s.pendVal := rfl
@[simp] theorem State.setRet_pendStart (s : State) (v : BitVec 64) : (s.setRet v).pendStart = s.pendStart := rfl
@[simp] theorem State.setRet_progress (s : State) (v : BitVec 64) : (s.setRet v).progress = s.progress := rfl
@[simp] theorem State.setRet_cause (s : State) (v : BitVec 64) : (s.setRet v).cause = s.cause := rfl
@[simp] theorem State.setRet_out (s : State) (v : BitVec 64) : (s.setRet v).out = s.out := rfl
@[simp] theorem State.setRet_sink (s : State) (v : BitVec 64) : (s.setRet v).sink = s.sink := rfl
@[simp] theorem State.setRet_schedule (s : State) (v : BitVec 64) : (s.setRet v).schedule = s.schedule := rfl
@[simp] theorem State.setRet_ret (s : State) (v : BitVec 64) : (s.setRet v).ret = v := rfl

end Sys2Proof.Machine
end

