-- ==== Sys2Proof/Laws/Trace.lean ====
section
/-! SUPPORT. Traces: what the canonical form says, what the next edge is, and that every operation that
touches a trace keeps the form. -/

namespace Sys2Proof.Machine

/-- The canonical form, spelled out (20_memory R50). -/
theorem Trace.wf_iff (t : Trace) :
    t.wf = true ↔ (∀ e ∈ t.edges, 0#64 < e) ∧ t.edges.Pairwise (fun p q => p < q) := by
  simp [Trace.wf]

theorem Trace.fits_iff (t : Trace) (b : Pos) : t.fits b = true ↔ ∀ e ∈ t.edges, e < b := by
  simp [Trace.fits]

/-- The next edge is a transition after `p`. -/
theorem Trace.nextEdge_some {t : Trace} {p e : Pos} (h : t.nextEdge p = some e) :
    e ∈ t.edges ∧ p < e :=
  ⟨List.mem_of_find?_eq_some h, by simpa using List.find?_some h⟩

/-- In canonical form it is the first one. -/
theorem Trace.nextEdge_le {t : Trace} {p e f : Pos} (hw : t.wf = true) (h : t.nextEdge p = some e)
    (hf : f ∈ t.edges) (hp : p < f) : e ≤ f := by
  obtain ⟨_, as, bs, hs, ha⟩ := List.find?_eq_some_iff_append.mp h
  have hpw := ((t.wf_iff).mp hw).2
  rw [hs] at hf hpw
  rcases List.mem_append.mp hf with hm | hm
  · exact absurd hp (by simpa using ha f hm)
  · rcases List.mem_cons.mp hm with rfl | hm
    · exact BitVec.le_refl _
    · exact BitVec.le_of_lt ((List.pairwise_cons.mp (List.pairwise_append.mp hpw).2.1).1 f hm)

/-- There is no next edge exactly when every transition is at or before `p`. -/
theorem Trace.nextEdge_none {t : Trace} {p : Pos} :
    t.nextEdge p = none ↔ ∀ e ∈ t.edges, e ≤ p := by
  simp [Trace.nextEdge]

/-- The next active edge is a transition after `p` that the active level follows. -/
theorem Trace.nextActive_some {t : Trace} {a : Level} {p e : Pos} (h : t.nextActive a p = some e) :
    e ∈ t.edges ∧ p < e ∧ t.level e = a :=
  ⟨List.mem_of_find?_eq_some h, by simpa using List.find?_some h⟩

/-! ## The canonical form is kept -/

theorem Trace.quiet_wf : Trace.quiet.wf = true := by decide

theorem reset_memory_wf : Memory.wf State.reset = true := by decide

theorem Trace.below_wf {t : Trace} (b : Pos) (h : t.wf = true) : (t.below b).wf = true := by
  rw [Trace.wf_iff] at h ⊢
  exact ⟨fun e he => h.1 e (List.mem_of_mem_filter he), h.2.filter _⟩

theorem mapLines_traces (i : Nat) (ts : List Trace) :
    (mapLines i ts).map (fun l => l.cursor.trace) = ts := by
  induction ts generalizing i with
  | nil => rfl
  | cons t ts ih => simp [mapLines, Trace.cursor, ih]

/-- The start step reads exactly the presented traces (10_state R22, R26). -/
theorem State.latch_traces (s : State) (w : BitVec 32) : (s.latch w).traces = s.inputs.traces := by
  simp only [State.traces, State.latch, State.setData_clk, State.setCs_clk, State.setClk_clk,
    State.setData_cs, State.setCs_cs, State.setData_data, mapLines_traces, Inputs.traces, Inputs.lines]
  cases s.inputs.cs <;> simp [Trace.cursor]

theorem State.latch_memory_wf {s : State} (w : BitVec 32) (h : Memory.wf s = true) :
    Memory.wf (s.latch w) = true := by
  have hi : (s.latch w).inputs = s.inputs := rfl
  simp only [Memory.wf, Bool.and_eq_true] at h ⊢
  rw [State.latch_traces, hi]
  exact ⟨h.1, h.1⟩

/-- A cursor's move leaves its trace as it is. -/
theorem State.setClk_memory_wf {s : State} {c : Cursor} (hc : c.trace = s.clk.trace)
    (h : Memory.wf s = true) : Memory.wf (s.setClk c) = true := by
  simpa [Memory.wf, State.traces, hc] using h

theorem linesAt_traces (ls : List Line) (p : Pos) :
    (linesAt ls p).map (fun l => l.cursor.trace) = ls.map (fun l => l.cursor.trace) := by
  simp [linesAt]

theorem State.setLines_memory_wf {s : State} {ls : List Line}
    (hl : ls.map (fun l => l.cursor.trace) = s.data.map (fun l => l.cursor.trace))
    (h : Memory.wf s = true) : Memory.wf (s.setData ls) = true := by
  simpa [Memory.wf, State.traces, hl] using h

/-- No move of the environment brings in a trace that is not in its canonical form. -/
theorem State.hostMove_memory_wf {s : State} (m : HostMove) (h : Memory.wf s = true) :
    Memory.wf (s.hostMove m) = true := by
  have hp : ∀ pr : Producer, Memory.wf (s.setProducer pr) = true := fun _ => h
  cases m with
  | append n => simp only [State.hostMove]; split <;> exact hp _
  | endCapture => simp only [State.hostMove]; split <;> exact hp _
  | cancel => simp only [State.hostMove]; split <;> exact h
  | present i =>
    simp only [State.hostMove]
    split
    · rename_i hc
      simp only [Bool.and_eq_true] at hc
      simp only [Memory.wf, Bool.and_eq_true] at h ⊢
      exact ⟨hc.1, h.2⟩
    · exact h
  | newRun pr =>
    simp only [State.hostMove]
    split
    · rename_i hc
      simp only [Bool.and_eq_true, Inputs.usable] at hc
      simp only [Memory.wf, Bool.and_eq_true]
      have hr : State.reset.traces.all Trace.wf = true := by decide
      exact ⟨hc.2.1, hr⟩
    · exact h

end Sys2Proof.Machine
end

