-- ==== Sys2Proof/Laws/Ops.lean ====
section
/-! SUPPORT. What each shared operation can do: when it completes and with what, and the registers a
commit, a sample, a start and an end of a step write. -/

namespace Sys2Proof.Machine

/-! ## Results -/

theorem Res.bind_eq_ok {α β : Type} {r : Res α} {k : α → Res β} {b : β} :
    r.bind k = .ok b ↔ ∃ a, r = .ok a ∧ k a = .ok b := by
  cases r <;> simp [Res.bind]

@[simp] theorem Res.ok_bind {α β : Type} (a : α) (k : α → Res β) : (Res.ok a).bind k = k a := rfl
@[simp] theorem Res.hold_bind {α β : Type} (k : α → Res β) : Res.hold.bind k = .hold := rfl
@[simp] theorem Res.done_bind {α β : Type} (k : α → Res β) : Res.done.bind k = .done := rfl
@[simp] theorem Res.raise_bind {α β : Type} (c : Cause) (k : α → Res β) : (Res.raise c).bind k = .raise c := rfl
@[simp] theorem Res.stuck_bind {α β : Type} (f : Fault) (k : α → Res β) : (Res.stuck f).bind k = .stuck f := rfl

@[simp] theorem Res.settle_ok (t s : State) : (Res.ok t).settle s = .next t := rfl
@[simp] theorem Res.settle_hold (s : State) : (Res.hold : Res State).settle s = .next s := rfl
@[simp] theorem Res.settle_done (s : State) : (Res.done : Res State).settle s = .next s.finish := rfl
@[simp] theorem Res.settle_raise (c : Cause) (s : State) : (Res.raise c : Res State).settle s = .next (s.stop c) := rfl
@[simp] theorem Res.settle_stuck (f : Fault) (s : State) : (Res.stuck f : Res State).settle s = .fault f := rfl

/-- Every way an atomic step answers a next state (00_scope R12). -/
theorem Res.settle_eq_next {r : Res State} {s t : State} (h : r.settle s = .next t) :
    r = .ok t ∨ (r = .hold ∧ t = s) ∨ (r = .done ∧ t = s.finish) ∨ ∃ c, r = .raise c ∧ t = s.stop c := by
  cases r <;> simp_all [Res.settle]

/-! ## Cursor primitives -/

theorem Cursor.currentLevel_eq_ok {pr : Producer} {c : Cursor} {l : Level} :
    c.currentLevel pr = .ok l ↔ pr.readable c.pos = true ∧ l = c.trace.level c.pos := by
  unfold Cursor.currentLevel Producer.readable
  cases pr.ended <;> by_cases h : pr.buffered = 0#64 <;> by_cases h2 : c.pos < pr.buffered <;>
    simp [h, h2] <;> exact eq_comm

theorem Cursor.advanceToNextEdge_eq_ok {pr : Producer} {c c' : Cursor} :
    c.advanceToNextEdge pr = .ok c' ↔
      ∃ t, c.trace.nextEdge c.pos = some t ∧ t < pr.buffered ∧ c' = { c with pos := t } := by
  unfold Cursor.advanceToNextEdge
  cases h : c.trace.nextEdge c.pos with
  | none => cases pr.ended <;> simp
  | some t =>
    by_cases h2 : t < pr.buffered
    · simp only [h2, if_true, Res.ok.injEq, Option.some.injEq]
      exact ⟨fun e => ⟨t, rfl, h2, e.symm⟩, fun ⟨u, hu, _, e⟩ => by rw [e, hu]⟩
    · cases pr.ended <;> simp only [h2, if_false] <;>
        exact ⟨fun e => by simp at e, fun ⟨u, hu, hb, _⟩ => by cases hu; exact absurd hb h2⟩

theorem Cursor.advanceToAbsolute_eq_ok {pr : Producer} {c c' : Cursor} {p : Pos} :
    c.advanceToAbsolute pr p = .ok c' ↔
      c.pos ≤ p ∧ (p < pr.buffered ∨ pr.ended = true) ∧ c' = { c with pos := p } := by
  unfold Cursor.advanceToAbsolute
  by_cases h : p < c.pos
  · simp [h, BitVec.not_le.mpr h]
  · by_cases h2 : p < pr.buffered ∨ pr.ended = true
    · simp only [h, h2, if_true, if_false, Res.ok.injEq, BitVec.not_lt.mp h, true_and]
      exact eq_comm
    · simp [h, h2]

theorem Cursor.moreBuffered_iff {pr : Producer} {c : Cursor} :
    c.moreBuffered pr = true ↔ ∃ t, c.trace.nextEdge c.pos = some t ∧ t < pr.buffered := by
  unfold Cursor.moreBuffered Producer.known
  cases c.trace.nextEdge c.pos <;> simp

/-- An advance the look-ahead has promised completes (20_memory R57, R59). -/
theorem Cursor.advance_of_moreBuffered {pr : Producer} {c : Cursor} (h : c.moreBuffered pr = true) :
    ∃ t, c.trace.nextEdge c.pos = some t ∧ t < pr.buffered ∧
      c.advanceToNextEdge pr = .ok { c with pos := t } := by
  obtain ⟨t, ht, hb⟩ := Cursor.moreBuffered_iff.mp h
  exact ⟨t, ht, hb, Cursor.advanceToNextEdge_eq_ok.mpr ⟨t, ht, hb, rfl⟩⟩

theorem Cursor.wouldCross_eq_ok {pr : Producer} {c : Cursor} {n : Pos} {b : Bool} :
    c.wouldCross pr n = .ok b ↔
      c.pos.toNat + n.toNat < 2 ^ 64 ∧ (c.pos + n < pr.buffered ∨ pr.ended = true) ∧
        b = (match c.trace.nextEdge c.pos with
          | some t => decide (t ≤ c.pos + n)
          | none => false) := by
  unfold Cursor.wouldCross
  by_cases h : 2 ^ 64 ≤ c.pos.toNat + n.toNat
  · rw [if_pos h]
    exact ⟨fun e => by simp at e, fun e => absurd e.1 (Nat.not_lt.mpr h)⟩
  · by_cases h2 : c.pos + n < pr.buffered ∨ pr.ended = true
    · rw [if_neg h, if_pos h2]
      simp only [Res.ok.injEq]
      exact ⟨fun e => ⟨Nat.not_le.mp h, h2, e.symm⟩, fun e => e.2.2.symm⟩
    · rw [if_neg h, if_neg h2]
      exact ⟨fun e => by simp at e, fun e => absurd e.2.1 h2⟩

theorem Producer.race_eq_ok {pr : Producer} {a c : Option Pos} {b : Bool} :
    pr.race a c = .ok b ↔ pr.known (posMin a c) = true ∧ b = posLt a c := by
  unfold Producer.race
  by_cases h : pr.known (posMin a c) = true
  · simp only [h, if_true, Res.ok.injEq, true_and]
    exact eq_comm
  · cases pr.ended <;> simp [h]

/-- A race the clock wins was settled by a buffered active edge before the chip-select's edge. -/
theorem Producer.race_clock {pr : Producer} {a c : Option Pos} (h : pr.race a c = .ok true) :
    ∃ p, a = some p ∧ p < pr.buffered ∧ ∀ q, c = some q → p < q := by
  obtain ⟨hk, hl⟩ := Producer.race_eq_ok.mp h
  rw [posMin, if_pos hl.symm] at hk
  cases a with
  | none => simp [Producer.known] at hk
  | some p =>
    refine ⟨p, rfl, by simpa [Producer.known] using hk, fun q hq => ?_⟩
    subst hq
    simpa [posLt] using hl.symm

/-- A race chip-select wins was settled by its buffered edge, no later than the active edge (43_cs_decoder
R158). -/
theorem Producer.race_chipSelect {pr : Producer} {a c : Option Pos} (h : pr.race a c = .ok false) :
    ∃ q, c = some q ∧ q < pr.buffered ∧ ∀ p, a = some p → q ≤ p := by
  obtain ⟨hk, hl⟩ := Producer.race_eq_ok.mp h
  rw [posMin, if_neg (by simp [← hl])] at hk
  cases c with
  | none => simp [Producer.known] at hk
  | some q =>
    refine ⟨q, rfl, by simpa [Producer.known] using hk, fun p hp => ?_⟩
    subst hp
    simpa [posLt] using hl.symm

/-! ## Registers a shared operation writes -/

theorem State.finish_eq (s : State) : s.finish = { s with phase := .done } := rfl

theorem State.stop_eq (s : State) (c : Cause) :
    s.stop c = { s with phase := .stopped, cause := c.code } := rfl

/-- Everything a commit writes (41_frame_emitter R111). -/
theorem State.commit_eq (s : State) (v : Word) (p q : Pos) :
    s.commit v p q =
      { s with
        out := s.out ++ [.frame { value := v, startPos := p, endPos := q, seq := s.frameSeq }, .progress q]
        seq := if cfgCsEn s.cfg then s.seq + 1#64 else s.seq
        newAssert := if cfgCsEn s.cfg then false else s.newAssert
        lastW := frameWidth p q
        lastWKnown := true
        progress := q } := by
  cases h : cfgCsEn s.cfg <;>
    simp [State.commit, State.afterFrame, State.countFrame, State.recordWidth, State.reportProgress, h,
      State.emit, State.setSeq, State.setLastW, State.setProgress]

/-- A width is at least 1 (41_frame_emitter R112). -/
theorem frameWidth_pos (p q : Pos) : 1 ≤ (frameWidth p q).toNat := by
  have : q.toNat < 2 ^ 64 := q.isLt
  simp only [frameWidth, BitVec.toNat_ofNat]
  rw [Nat.mod_eq_of_lt (by omega)]
  omega

/-- The sampler's loop, when it completes, leaves every cursor at `p` and every trace as it was
(40_word_sampler R100). -/
theorem sampleLines_lines {pr : Producer} {p : Pos} {ls ls' : List Line} {w : Word}
    (h : sampleLines pr p ls = .ok (ls', w)) : ls' = linesAt ls p := by
  induction ls generalizing ls' w with
  | nil => simp_all [sampleLines, linesAt]
  | cons l ls ih =>
    simp only [sampleLines, Res.bind_eq_ok] at h
    obtain ⟨c, hc, v, -, r, hr, he⟩ := h
    obtain ⟨-, -, rfl⟩ := Cursor.advanceToAbsolute_eq_ok.mp hc
    cases he
    rw [ih (ls' := r.1) (w := r.2) hr]
    rfl

/-- A buffered position is readable (20_memory R52, R56). -/
theorem Producer.readable_of_lt {pr : Producer} {p : Pos} (h : p < pr.buffered) : pr.readable p = true := by
  unfold Producer.readable
  split
  · rw [bne_iff_ne]
    rintro h0
    simp [h0] at h
  · simpa using h

/-- An advance to an edge that is not buffered holds, or ends the run (20_memory R57). -/
theorem Cursor.advance_unbuffered {pr : Producer} {c : Cursor} (h : pr.known (c.trace.nextEdge c.pos) = false) :
    c.advanceToNextEdge pr = if pr.ended then .done else .hold := by
  unfold Cursor.advanceToNextEdge
  cases h2 : c.trace.nextEdge c.pos with
  | none => rfl
  | some t =>
    have ht : ¬ t < pr.buffered := by simpa [h2, Producer.known] using h
    simp only [ht, if_false]

/-- One more line in front contributes its mask when it reads 1 (40_word_sampler R101). -/
theorem wordAt_cons (l : Line) (ls : List Line) (p : Pos) :
    wordAt (l :: ls) p = l.bits (l.cursor.trace.level p) ||| wordAt ls p := by
  have key : ∀ (ms : List Line) (w : Word),
      ms.foldl (fun w m => if m.cursor.trace.level p then w ||| m.mask else w) w = w ||| wordAt ms p := by
    intro ms
    induction ms with
    | nil => intro w; simp [wordAt]
    | cons m ms ih =>
      intro w
      rw [wordAt, List.foldl_cons, List.foldl_cons, ih, ih]
      split <;> simp [BitVec.or_assoc]
  rw [wordAt, List.foldl_cons, key, Line.bits]
  split <;> simp

/-- The sampler's loop completes at a readable position no line has passed (40_word_sampler R100, R103). -/
theorem sampleLines_of_readable {pr : Producer} {p : Pos} {ls : List Line} (h : linesBefore ls p = true)
    (hr : pr.readable p = true) : sampleLines pr p ls = .ok (linesAt ls p, wordAt ls p) := by
  induction ls with
  | nil => rfl
  | cons l ls ih =>
    simp only [linesBefore, List.all_cons, Bool.and_eq_true, decide_eq_true_eq] at h
    have hb : p < pr.buffered ∨ pr.ended = true := by
      unfold Producer.readable at hr
      split at hr <;> simp_all
    rw [sampleLines, Cursor.advanceToAbsolute_eq_ok.mpr ⟨h.1, hb, rfl⟩, Res.ok_bind,
      Cursor.currentLevel_eq_ok.mpr ⟨hr, rfl⟩, Res.ok_bind, ih h.2, Res.ok_bind, wordAt_cons]
    rfl

/-- The sampler completes there, with the word the lines show (40_word_sampler R100, R101). -/
theorem State.sampleWord_of_readable {s : State} {p : Pos} (h : linesBefore s.data p = true)
    (hr : s.producer.readable p = true) :
    s.sampleWord p =
      .ok ({ s with data := linesAt s.data p, out := s.out ++ dots s.data.length p }, wordAt s.data p) := by
  have hb : ¬ (s.data.any fun l => decide (p < l.cursor.pos)) = true := by
    simp only [List.any_eq_true, decide_eq_true_eq, not_exists, not_and]
    intro l hl
    exact BitVec.not_lt.mpr (by simpa using List.all_eq_true.mp h l hl)
  unfold State.sampleWord
  rw [if_neg hb, sampleLines_of_readable h hr]
  rfl

/-- What a completed sample writes: the data cursors and the dots (40_word_sampler R100). -/
theorem State.sampleWord_state {s t : State} {p : Pos} {w : Word} (h : s.sampleWord p = .ok (t, w)) :
    t = { s with data := linesAt s.data p, out := s.out ++ dots s.data.length p } := by
  unfold State.sampleWord at h
  split at h
  · cases h
  · obtain ⟨r, hr, he⟩ := Res.bind_eq_ok.mp h
    cases he
    rw [sampleLines_lines (ls' := r.1) (w := r.2) hr]
    rfl

/-- With an estimate above the clamp and a window that fits, the provisional end is `S + e - 1`
(41_frame_emitter R115). -/
theorem State.provisionalEnd_of_fits {s : State} {p e : Pos} (hc : s.config.estClamp < e.toNat)
    (hf : p.toNat + e.toNat < 2 ^ 64) : s.provisionalEnd p e = .ok (p + e - 1#64) := by
  unfold State.provisionalEnd
  rw [if_neg (by omega), Nat.max_eq_left (by omega)]
  exact congrArg Res.ok (by bv_omega)

/-- The clock's move to a buffered active edge completes forward and faults backward (70_reset_and_hazards R225). -/
theorem State.toActiveEdge_buffered {s : State} {p : Pos} (h : p < s.producer.buffered) :
    s.toActiveEdge (some p) =
      if p < s.clk.pos then .raise .nonmonotonic
      else .ok { s with clk := { s.clk with pos := p }, phase := .qEdge } := by
  unfold State.toActiveEdge Cursor.advanceToAbsolute
  by_cases hp : p < s.clk.pos <;> simp [hp, h, State.setClk, State.setPhase]

/-- The start step goes one of two ways (70_reset_and_hazards R221). -/
theorem State.start_cases (s : State) (w : BitVec 32) :
    (∃ c, startCheck s.config w s.inputs = some c ∧
      s.start w = { s.latch w with phase := .stopped, cause := c.code }) ∨
    (startCheck s.config w s.inputs = none ∧
      s.start w = { s.latch w with
        phase := cfgFirstPhase w, pendValid := if cfgFirstPhase w = .dHead then false else s.pendValid }) := by
  unfold State.start
  cases h : startCheck s.config w s.inputs with
  | some c => exact .inl ⟨c, rfl, rfl⟩
  | none =>
    refine .inr ⟨rfl, ?_⟩
    unfold State.enter
    cases cfgFirstPhase w <;> rfl

end Sys2Proof.Machine
end

