-- ==== Sys2Proof/Laws/PerInstr.lean ====
section
/-! SUPPORT. Statements for every operation, one lemma for each constructor. OneCode: no two well-formed
operations share a code word (30_encoding R81, R84). -/

namespace Sys2Proof.Laws.OneCode

/-- The code of `i`, when it has one, is the code of no other well-formed operation. -/
def Statement (i : Instr) : Prop :=
  ∀ j : Instr, i.wf = true → j.wf = true → encode i ≠ none → encode i = encode j → i = j

/-- The reserved field and the low field stand in the word where 30_encoding R80 puts them. -/
theorem append_fields (resv : BitVec 29) (low : BitVec 3) :
    (resv ++ low).extractLsb' 3 29 = resv ∧ (resv ++ low).extractLsb' 0 3 = low := by
  constructor
  · ext i hi
    simp only [BitVec.getElem_extractLsb', BitVec.getLsbD_append]
    simp [hi]
  · ext i hi
    simp only [BitVec.getElem_extractLsb', BitVec.getLsbD_append]
    simp [hi]

/-- A word with no reserved bit is not the word of the reserved-bits row. -/
theorem reserved_ne {resv : BitVec 29} {low : BitVec 3} {w : BitVec 32} (h : resv ≠ 0#29)
    (hw : w.extractLsb' 3 29 = 0#29) : w ≠ resv ++ low := fun e =>
  h (by rw [← hw, e]; exact (append_fields resv low).1.symm)

theorem cfgEdgeRise : Statement .cfgEdgeRise := by
  intro j _ hj _ he
  cases j <;> simp [encode] at he ⊢
  exact reserved_ne (by simpa [Instr.wf] using hj) (by decide) he

theorem cfgEdgeFall : Statement .cfgEdgeFall := by
  intro j _ hj _ he
  cases j <;> simp [encode] at he ⊢
  exact reserved_ne (by simpa [Instr.wf] using hj) (by decide) he

theorem cfgDualEdge : Statement .cfgDualEdge := by
  intro j _ hj _ he
  cases j <;> simp [encode] at he ⊢
  exact reserved_ne (by simpa [Instr.wf] using hj) (by decide) he

theorem cfgReservedMode3 : Statement .cfgReservedMode3 := by
  intro j _ hj _ he
  cases j <;> simp [encode] at he ⊢
  exact reserved_ne (by simpa [Instr.wf] using hj) (by decide) he

theorem cfgCsRise : Statement .cfgCsRise := by
  intro j _ hj _ he
  cases j <;> simp [encode] at he ⊢
  exact reserved_ne (by simpa [Instr.wf] using hj) (by decide) he

theorem cfgCsFall : Statement .cfgCsFall := by
  intro j _ hj _ he
  cases j <;> simp [encode] at he ⊢
  exact reserved_ne (by simpa [Instr.wf] using hj) (by decide) he

theorem cfgReservedCsDual : Statement .cfgReservedCsDual := by
  intro j _ hj _ he
  cases j <;> simp [encode] at he ⊢
  exact reserved_ne (by simpa [Instr.wf] using hj) (by decide) he

theorem cfgReservedCsMode3 : Statement .cfgReservedCsMode3 := by
  intro j _ hj _ he
  cases j <;> simp [encode] at he ⊢
  exact reserved_ne (by simpa [Instr.wf] using hj) (by decide) he

theorem cfgReservedBits (resv : BitVec 29) (low : BitVec 3) : Statement (.cfgReservedBits resv low) := by
  intro j hi _ _ he
  have hr : resv ≠ 0#29 := by simpa [Instr.wf] using hi
  cases j with
  | cfgReservedBits resv' low' =>
    simp only [encode, Option.some.injEq, Code.cfg.injEq] at he
    have h1 : resv = resv' := by rw [← (append_fields resv low).1, he, (append_fields resv' low').1]
    have h2 : low = low' := by rw [← (append_fields resv low).2, he, (append_fields resv' low').2]
    rw [h1, h2]
  | _ =>
    simp only [encode, Option.some.injEq, Code.cfg.injEq, reduceCtorEq] at he
    try exact absurd he.symm (reserved_ne hr (by decide))

theorem phESeek : Statement .phESeek := by
  intro j _ _ _ he
  cases j <;> simp [encode] at he ⊢

theorem phEEdge : Statement .phEEdge := by
  intro j _ _ _ he
  cases j <;> simp [encode] at he ⊢

theorem phEProbe : Statement .phEProbe := by
  intro j _ _ _ he
  cases j <;> simp [encode] at he ⊢

theorem phQInit : Statement .phQInit := by
  intro j _ _ _ he
  cases j <;> simp [encode] at he ⊢

theorem phQAlign : Statement .phQAlign := by
  intro j _ _ _ he
  cases j <;> simp [encode] at he ⊢

theorem phQEdge : Statement .phQEdge := by
  intro j _ _ _ he
  cases j <;> simp [encode] at he ⊢

theorem phQRace : Statement .phQRace := by
  intro j _ _ _ he
  cases j <;> simp [encode] at he ⊢

theorem phQDeassert : Statement .phQDeassert := by
  intro j _ _ _ he
  cases j <;> simp [encode] at he ⊢

theorem phQReassert : Statement .phQReassert := by
  intro j _ _ _ he
  cases j <;> simp [encode] at he ⊢

theorem phDHead : Statement .phDHead := by
  intro j _ _ _ he
  cases j <;> simp [encode] at he ⊢

theorem phDAdvance : Statement .phDAdvance := by
  intro j _ _ _ he
  cases j <;> simp [encode] at he ⊢

theorem phDProbe : Statement .phDProbe := by
  intro j _ _ _ he
  cases j <;> simp [encode] at he ⊢

theorem phIdleStart : Statement .phIdleStart := by
  intro j _ _ _ he
  cases j <;> simp [encode] at he ⊢

theorem phDone : Statement .phDone := by
  intro j _ _ _ he
  cases j <;> simp [encode] at he ⊢

theorem phCancelled : Statement .phCancelled := by
  intro j _ _ _ he
  cases j <;> simp [encode] at he ⊢

theorem phStopped : Statement .phStopped := by
  intro j _ _ _ he
  cases j <;> simp [encode] at he ⊢

theorem opSampleWord (p : Pos) : Statement (.opSampleWord p) := fun _ _ _ h _ => absurd rfl h

theorem opEstimateWidth : Statement .opEstimateWidth := fun _ _ _ h _ => absurd rfl h

theorem opCommit (v : Word) (p q : Pos) : Statement (.opCommit v p q) := fun _ _ _ h _ => absurd rfl h

theorem opReportProgress (p : Pos) : Statement (.opReportProgress p) := fun _ _ _ h _ => absurd rfl h

theorem opMarkArrow (p : Pos) (l : Level) : Statement (.opMarkArrow p l) := fun _ _ _ h _ => absurd rfl h

theorem opFinishReal (w : Word) (p : Pos) : Statement (.opFinishReal w p) := fun _ _ _ h _ => absurd rfl h

theorem opCloseAndOpen (e : Pos) : Statement (.opCloseAndOpen e) := fun _ _ _ h _ => absurd rfl h

theorem opSeekActive : Statement .opSeekActive := fun _ _ _ h _ => absurd rfl h

end Sys2Proof.Laws.OneCode
end

