-- ==== Sys2Proof/Tests/Slice0.lean ====
section
/-! SUPPORT. Tests on small states, each expected value taken from the spec's own vectors
(95_test_vectors) or tables, and for each statement with hypotheses a witness that meets them. -/

namespace Sys2Proof.Tests

open Sys2Proof Sys2Proof.Machine

/-! ## Helpers -/

/-- The next state of an outcome. -/
def next? (o : Host.Outcome State Fault Refusal) : Option State :=
  match o with
  | .next t => some t
  | .fault _ => none
  | .refused _ => none

/-- A trace from its notation (30_encoding R91). -/
def tr (l : Nat) (es : List Nat) : Trace := { initial := l == 1, edges := es.map (BitVec.ofNat 64) }

/-- A line at a position, with its mask. -/
def line (i p : Nat) (t : Trace) : Line := { cursor := { trace := t, pos := BitVec.ofNat 64 p }, mask := 1#16 <<< i }

/-- A state of a run: variant, phase, producer, clock, data lines. -/
def st (cfg : BitVec 32) (ph : Phase) (b : Nat) (ended : Bool) (clk : Trace) (pos : Nat) (ls : List Line) : State :=
  { State.reset with
    cfg := cfg, phase := ph, producer := { buffered := BitVec.ofNat 64 b, ended := ended }
    clk := { trace := clk, pos := BitVec.ofNat 64 pos }, data := ls }

/-- The same with a chip-select cursor. -/
def withCs (s : State) (t : Trace) (p : Nat) : State := { s with cs := some { trace := t, pos := BitVec.ofNat 64 p } }

/-- A state before the start step: presented word, data bindings, chip-select, clock, producer. -/
def fresh (cfg : Nat) (data : List (Option Trace)) (cs : Option Trace) (clk : Trace) (b : Nat) (ended : Bool) : State :=
  { State.reset with
    inputs := { cfg := BitVec.ofNat 32 cfg, data := data, clk := clk, cs := cs }
    producer := { buffered := BitVec.ofNat 64 b, ended := ended } }

/-- What the start step leaves in `PHASE` and `CAUSE`. -/
def started (s : State) : Option (Phase × BitVec 8) := (next? (step s)).map fun t => (t.phase, t.cause)

def dot (i p : Nat) : Record := .marker { kind := .dot, channel := .data i, pos := BitVec.ofNat 64 p }
def up (p : Nat) : Record := .marker { kind := .arrowUp, channel := .clk, pos := BitVec.ofNat 64 p }
def down (p : Nat) : Record := .marker { kind := .arrowDown, channel := .clk, pos := BitVec.ofNat 64 p }
def fr (v p q : Nat) : Record :=
  .frame { value := BitVec.ofNat 16 v, startPos := BitVec.ofNat 64 p, endPos := BitVec.ofNat 64 q, seq := none }
def frq (v p q k : Nat) : Record :=
  .frame { value := BitVec.ofNat 16 v, startPos := BitVec.ofNat 64 p, endPos := BitVec.ofNat 64 q, seq := some (BitVec.ofNat 64 k) }
def pg (p : Nat) : Record := .progress (BitVec.ofNat 64 p)

theorem forall_eq_some {o : Option Pos} {x : Pos} {P : Pos → Prop} (h : o = some x) (hx : P x) :
    ∀ q, o = some q → P q := fun q hq => by rw [h] at hq; cases hq; exact hx

theorem forall_eq_none {o : Option Pos} {P : Pos → Prop} (h : o = none) : ∀ q, o = some q → P q :=
  fun q hq => by rw [h] at hq; cases hq

/-! ## Well-formed operations: each check refuses its ill-formed term -/

theorem test_wf_refuses_no_reserved_bit : (Instr.cfgReservedBits 0#29 5#3).wf = false := by decide
theorem test_wf_refuses_backward_commit : (Instr.opCommit 0#16 20#64 19#64).wf = false := by decide
theorem test_wf_refuses_edge_zero : (Instr.opCloseAndOpen 0#64).wf = false := by decide

/-! ## Decoding: every row's word, written out from 30_encoding R80, R81, R84 -/

theorem test_decode_cfg_rows :
    [0b000, 0b001, 0b010, 0b011, 0b100, 0b101, 0b110, 0b111].map (decodeTableWord 32) =
      [some .cfgEdgeRise, some .cfgEdgeFall, some .cfgDualEdge, some .cfgReservedMode3, some .cfgCsRise, some .cfgCsFall,
        some .cfgReservedCsDual, some .cfgReservedCsMode3] := by decide

theorem test_decode_reserved_bits :
    decodeTableWord 32 0b1000 = some (.cfgReservedBits 1#29 0#3) ∧
      decodeTableWord 32 0x80000003 = some (.cfgReservedBits 0x10000000#29 3#3) := by decide

theorem test_decode_phase_rows :
    [0x0, 0x1, 0x2, 0x3, 0x4, 0x5, 0x6, 0x7, 0x8, 0x9, 0xA, 0xB, 0xC, 0xD, 0xE, 0xF].map (decodeTableWord 8) =
      [some .phIdleStart, some .phESeek, some .phEEdge, some .phEProbe, some .phQInit, some .phQAlign, some .phQEdge,
        some .phQRace, some .phQDeassert, some .phQReassert, some .phDHead, some .phDAdvance, some .phDProbe, some .phDone,
        some .phCancelled, some .phStopped] := by decide

theorem test_decode_no_such_word : decodeTableWord 8 0x10 = none ∧ decodeTableWord 16 0 = none := by decide

theorem test_fetch_runs_phase_rows :
    (List.range 16).all (fun w => (next? (step (State.reset.withFetchWord 8 w))).isSome) = true := by decide

theorem test_fetch_runs_cfg_rows :
    (List.range 9).map (fun w => (next? (step (State.reset.withFetchWord 32 w))).map (fun t => t.cause)) =
      [some 0x04#8, some 0x04#8, some 0x04#8, some 0x02#8, some 0x04#8, some 0x04#8, some 0x03#8, some 0x02#8, some 0x01#8] := by
  decide

/-! ## The start step: V-C1 to V-C16 -/

def one : List (Option Trace) := [none, some (tr 1 [])]
def cs1 : Option Trace := some (tr 1 [10, 30])

theorem test_start_accepted :
    [started (fresh 0 one none (tr 0 []) 1 true), started (fresh 1 one none (tr 0 []) 1 true),
      started (fresh 2 one none (tr 0 []) 1 true), started (fresh 4 one cs1 (tr 0 []) 31 true),
      started (fresh 5 one cs1 (tr 0 []) 31 true)] =
    [some (.eSeek, 0#8), some (.eSeek, 0#8), some (.dHead, 0#8), some (.qInit, 0#8), some (.qInit, 0#8)] := by decide

theorem test_start_reserved :
    [started (fresh 3 one none (tr 0 []) 1 true), started (fresh 6 one cs1 (tr 0 []) 31 true),
      started (fresh 7 one cs1 (tr 0 []) 31 true), started (fresh 8 one none (tr 0 []) 1 true),
      started (fresh 0x80000003 one none (tr 0 []) 1 true)] =
    [some (.stopped, 2#8), some (.stopped, 3#8), some (.stopped, 2#8), some (.stopped, 1#8), some (.stopped, 1#8)] := by decide

theorem test_start_bindings :
    [started (fresh 0 [none] none (tr 0 []) 1 true), started (fresh 6 [] cs1 (tr 0 []) 31 true),
      started (fresh 0 (List.replicate 17 (some (tr 0 []))) none (tr 0 []) 1 true), started (fresh 4 one none (tr 0 []) 1 true),
      started (fresh 0 one cs1 (tr 0 []) 31 true), started (fresh 0 (List.replicate 16 (some (tr 0 []))) none (tr 0 []) 1 true)] =
    [some (.stopped, 4#8), some (.stopped, 3#8), some (.stopped, 5#8), some (.stopped, 6#8), some (.stopped, 6#8),
      some (.eSeek, 0#8)] := by decide

/-- 10_state R26's example: `[unused, ch3, unused, ch7]` gives two lines with masks 1 and 2. -/
theorem test_mapping_example :
    (next? (step (fresh 0 [none, some (tr 1 [3]), none, some (tr 0 [7])] none (tr 0 []) 9 true))).map (fun t => t.data) =
      some [line 0 0 (tr 1 [3]), line 1 0 (tr 0 [7])] := by decide

/-! ## Traces and cursors: V-M1 to V-M29 -/

def c0 (p : Nat) : Cursor := { trace := tr 0 [4, 9, 20], pos := BitVec.ofNat 64 p }
def pr (b : Nat) (e : Bool) : Producer := { buffered := BitVec.ofNat 64 b, ended := e }

theorem test_current_level :
    [(c0 0).currentLevel (pr 5 false), (c0 4).currentLevel (pr 5 false), (c0 9).currentLevel (pr 10 false),
      (c0 5).currentLevel (pr 5 false), (c0 0).currentLevel (pr 0 true)] = [.ok false, .ok true, .ok false, .hold, .done] := by
  decide

theorem test_advance_to_next_edge :
    [(c0 0).advanceToNextEdge (pr 5 false), (c0 4).advanceToNextEdge (pr 9 false), (c0 4).advanceToNextEdge (pr 10 false),
      (c0 20).advanceToNextEdge (pr 21 true)] = [.ok (c0 4), .hold, .ok (c0 9), .done] := by decide

theorem test_advance_to_absolute :
    [(c0 9).advanceToAbsolute (pr 21 true) 5#64, (c0 9).advanceToAbsolute (pr 12 false) 15#64,
      (c0 9).advanceToAbsolute (pr 16 false) 15#64, (c0 9).advanceToAbsolute (pr 10 false) 9#64] =
    [.raise .nonmonotonic, .hold, .ok (c0 15), .ok (c0 9)] := by decide

theorem test_more_transitions_buffered :
    [(c0 4).moreBuffered (pr 9 false), (c0 4).moreBuffered (pr 10 false), (c0 20).moreBuffered (pr 21 true)] =
      [false, true, false] := by decide

theorem test_would_advancing_cross :
    [(c0 4).wouldCross (pr 9 false) 5#64, (c0 4).wouldCross (pr 10 false) 5#64, (c0 4).wouldCross (pr 9 false) 4#64,
      (c0 20).wouldCross (pr 21 true) 10#64, (c0 (2 ^ 64 - 5)).wouldCross (pr 21 false) 10#64] =
    [.hold, .ok true, .ok false, .ok false, .raise .posOverflow] := by decide

theorem test_next_edge :
    [(c0 9).nextEdge (pr 15 false), (c0 9).nextEdge (pr 21 false), (c0 20).nextEdge (pr 21 true)] =
      [.hold, .ok (some 20#64), .ok none] := by decide

theorem test_seek_active :
    [(c0 0).seekActive (pr 21 true) true, (c0 4).seekActive (pr 21 true) true, (c0 0).seekActive (pr 21 true) false,
      (c0 4).seekActive (pr 15 false) true, (c0 9).seekActive (pr 21 true) false] =
    [.ok (c0 4), .ok (c0 20), .ok (c0 9), .hold, .done] := by decide

theorem test_trace_form_refused : (tr 0 [0, 4]).wf = false ∧ (tr 0 [4, 4]).wf = false ∧ (tr 0 [4, 9]).wf = true := by decide

/-! ## Sampler and emitter: V-S3, V-S6, W2, V-F1 to V-F4 -/

/-- V-S3: levels 1, 0, 1 at 40. -/
def s3 : State := st 0#32 .eEdge 41 true (tr 0 [40]) 40 [line 0 0 (tr 1 []), line 1 0 (tr 0 []), line 2 0 (tr 1 [])]

theorem test_sample_word :
    (next? (exec (.opSampleWord 40#64) s3)).map (fun t => (t.ret, t.out)) = some (5#64, [dot 0 40, dot 1 40, dot 2 40]) := by
  decide

/-- V-S6 and V-S7: a transition at the sample reads the level after it, one sample later the level before. -/
theorem test_sample_on_transition :
    wordAt [line 0 0 (tr 0 [40]), line 1 0 (tr 1 [40])] 40#64 = 1#16 ∧
      wordAt [line 0 0 (tr 0 [41]), line 1 0 (tr 1 [41])] 40#64 = 2#16 := by decide

/-- W2, with the halves and the widest widths. -/
theorem test_estimate_width :
    [1, 24, 25, 34, 35, 44, 45, 99, 104, 105, 2 ^ 63, 2 ^ 64 - 1].map (fun w => estimateNat {} true (BitVec.ofNat 64 w)) =
      [3, 3, 3, 3, 4, 4, 5, 10, 10, 11, 922337203685477581, 1844674407370955162] ∧
    (next? (exec .opEstimateWidth State.reset)).map (fun t => t.ret) = some 10#64 := by decide

/-- V-F1 and V-F2. -/
theorem test_commit :
    (next? (exec (.opCommit 5#16 10#64 19#64) s3)).map (fun t => (t.out, t.lastW, t.progress)) =
        some ([fr 5 10 19, pg 19], 9#64, 19#64) ∧
      (next? (exec (.opCommit 0#16 10#64 10#64) s3)).map (fun t => t.lastW) = some 1#64 := by decide

/-- V-F4. -/
theorem test_commit_chip_select :
    (next? (exec (.opCommit 3#16 105#64 109#64) { s3 with cfg := 4#32, newAssert := true })).map
        (fun t => (t.out, t.seq, t.newAssert, t.lastW)) = some ([frq 3 105 109 0, pg 109], 1#64, false, 4#64) := by decide

theorem test_progress_and_arrows :
    (next? (exec (.opReportProgress 7#64) s3)).map (fun t => (t.out, t.progress)) = some ([pg 7], 7#64) ∧
      (next? (exec (.opMarkArrow 7#64 true) s3)).map (fun t => t.out) = some [up 7] ∧
      (next? (exec (.opMarkArrow 7#64 false) s3)).map (fun t => t.out) = some [down 7] := by decide

/-! ## Edge-gated decoder -/

/-- W1's run at its first active edge. -/
def w1 (p : Nat) (ph : Phase) : State :=
  st 0#32 ph 36 true (tr 0 [10, 15, 20, 25, 30, 35]) p [line 0 0 (tr 0 [12]), line 1 0 (tr 1 [22])]

theorem test_e_seek :
    (next? (step (w1 0 .eSeek))).map (fun t => (t.phase, t.clk.pos)) = some (.eEdge, 10#64) ∧
      (next? (step (w1 35 .eSeek))).map (fun t => (t.phase, t.clk.pos)) = some (.done, 35#64) := by decide

theorem test_e_edge_next_active :
    (next? (step (w1 10 .eEdge))).map (fun t => (t.phase, t.clk.pos, t.out)) =
      some (.eEdge, 20#64, [dot 0 10, dot 1 10, up 10, fr 2 10 19, pg 19]) := by decide

/-- The last frame of W1 ends at its inactive edge minus one. -/
theorem test_e_edge_inactive :
    (next? (step (w1 30 .eEdge))).map (fun t => (t.phase, t.clk.pos, t.out)) =
      some (.eSeek, 35#64, [dot 0 30, dot 1 30, up 30, fr 1 30 34, pg 34]) := by decide

/-- V-E7 at `S = 10`: the probe holds at `B = 20`, and with `B = 21` finds 12 in `(10, 20]`. -/
def e7 (b : Nat) (ended : Bool) : State :=
  { st 0#32 .eProbe b ended (tr 0 [10, 12, 20, 22]) 10 [line 0 10 (tr 1 [])] with
    sLatch := 10#64, wLatch := 1#16, estLatch := 10#64 }

theorem test_e_probe_holds_then_crosses :
    next? (step (e7 20 false)) = some (e7 20 false) ∧
      (next? (step (e7 21 false))).map (fun t => (t.phase, t.clk.pos, t.out)) = some (.eEdge, 20#64, [fr 1 10 19, pg 19]) := by
  decide

/-- W3: one active edge at 50, the provisional frame `[50, 59]`. -/
def w3 : State :=
  { st 0#32 .eProbe 51 true (tr 0 [50]) 50 [line 0 50 (tr 1 [])] with sLatch := 50#64, wLatch := 1#16, estLatch := 10#64 }

theorem test_e_probe_provisional :
    (next? (step w3)).map (fun t => (t.phase, t.clk.pos, t.out, t.lastW)) =
      some (.eSeek, 50#64, [fr 1 50 59, pg 59], 9#64) := by decide

/-- V-E9: the window passes the top before it can hold. -/
def e9 : State :=
  { st 0#32 .eProbe (2 ^ 64 - 4) false (tr 0 [2 ^ 64 - 5]) (2 ^ 64 - 5) [line 0 (2 ^ 64 - 5) (tr 0 [])] with
    sLatch := BitVec.ofNat 64 (2 ^ 64 - 5), estLatch := 10#64 }

theorem test_e_probe_overflow : (next? (step e9)).map (fun t => (t.phase, t.cause)) = some (.stopped, 0x11#8) := by decide

theorem test_finish_real :
    (next? (exec (.opFinishReal 7#16 10#64) (w1 10 .eEdge))).map (fun t => (t.phase, t.out)) =
      some (.eEdge, [fr 7 10 19, pg 19]) := by decide

/-! ## Chip-select-gated decoder: W5, V-Q1, V-Q3, V-Q4 -/

/-- W5's run. -/
def w5 (ph : Phase) (p cs : Nat) : State :=
  withCs (st 4#32 ph 121 true (tr 0 [105, 107, 110, 112, 115, 117]) p [line 0 0 (tr 1 [108]), line 1 0 (tr 0 [109, 113])])
    (tr 1 [100, 120]) cs

theorem test_q_init :
    (next? (step (w5 .qInit 0 0))).map (fun t => (t.phase, t.clk.pos, t.cs.map (fun c => c.pos), t.newAssert)) =
      some (.qAlign, 100#64, some 100#64, true) := by decide

theorem test_q_align : (next? (step (w5 .qAlign 100 100))).map (fun t => (t.phase, t.clk.pos)) = some (.qEdge, 105#64) := by
  decide

theorem test_q_edge :
    (next? (step (w5 .qEdge 105 100))).map (fun t => (t.phase, t.out, t.wLatch)) =
      some (.qRace, [dot 0 105, dot 1 105, up 105], 1#16) := by decide

/-- The third frame of W5, clipped by chip-select. -/
def w5race (p : Nat) (q : Nat) : State := { w5 .qRace p 100 with sLatch := BitVec.ofNat 64 p, seq := BitVec.ofNat 64 q }

theorem test_q_race :
    (next? (step (w5race 105 0))).map (fun t => (t.phase, t.clk.pos, t.out)) = some (.qEdge, 110#64, [frq 0 105 109 0, pg 109]) ∧
      (next? (step (w5race 115 2))).map (fun t => (t.phase, t.clk.pos, t.out)) =
        some (.qDeassert, 115#64, [frq 0 115 119 2, pg 119]) := by decide

/-- V-Q1: the tie at 30 goes to chip-select. -/
def q1 : State :=
  { withCs (st 4#32 .qRace 33 true (tr 0 [15, 17, 30, 32]) 15 [line 0 15 (tr 1 [])]) (tr 1 [10, 30]) 10 with
    sLatch := 15#64, wLatch := 1#16 }

theorem test_q_race_tie :
    (next? (step q1)).map (fun t => (t.phase, t.out)) = some (.qDeassert, [frq 1 15 29 0, pg 29]) := by decide

/-- V-Q4: the live tail holds; at the end of the capture the run is done without the frame. -/
def q4 (ended : Bool) : State :=
  { withCs (st 4#32 .qRace 20 ended (tr 0 [15]) 15 [line 0 15 (tr 1 [])]) (tr 1 [10]) 10 with sLatch := 15#64, wLatch := 1#16 }

theorem test_q_race_live_tail :
    next? (step (q4 false)) = some (q4 false) ∧ (next? (step (q4 true))).map (fun t => (t.phase, t.out)) = some (.done, []) := by
  decide

theorem test_q_deassert :
    (next? (step (w5 .qDeassert 115 100))).map (fun t => (t.phase, t.out, t.progress)) =
      some (.qReassert, [pg 120], 120#64) := by decide

/-- P2, step 10: the re-assertion at 80. -/
def p2 (b : Nat) : State :=
  { withCs (st 4#32 .qReassert b false (tr 0 [25, 27, 85, 87]) 45 [line 0 45 (tr 0 [])]) (tr 1 [20, 60, 80, 130]) 60 with
    seq := 3#64, lastWKnown := true }

theorem test_q_reassert :
    (next? (step (p2 100))).map (fun t => (t.phase, t.clk.pos, t.out, t.seq)) = some (.qAlign, 80#64, [pg 80], 0#64) ∧
      next? (step (p2 80)) = some (p2 80) := by decide

theorem test_q_reassert_resets :
    (next? (step (p2 100))).map (fun t => (t.newAssert, t.lastWKnown)) = some (true, false) := by decide

/-! ## Dual-edge decoder: V-D1, V-D5 -/

/-- V-D1's run with the pending frame opened at 10. -/
def d1 (ph : Phase) (p : Nat) (v : Bool) : State :=
  { st 2#32 ph 31 true (tr 0 [10, 15, 22, 30]) p [line 0 p (tr 0 [])] with pendValid := v, pendStart := BitVec.ofNat 64 p }

theorem test_d_head :
    (next? (step (d1 .dHead 10 true))).map (fun t => t.phase) = some .dAdvance ∧
      (next? (step (d1 .dHead 30 true))).map (fun t => (t.phase, t.estLatch)) = some (.dProbe, 10#64) := by decide

theorem test_d_advance :
    (next? (step (d1 .dAdvance 10 true))).map (fun t => (t.phase, t.pendStart, t.out)) =
      some (.dHead, 15#64, [fr 0 10 14, pg 14, dot 0 15, down 15]) ∧
    (next? (step (d1 .dAdvance 0 false))).map (fun t => (t.pendValid, t.out)) = some (true, [dot 0 10, up 10]) := by decide

theorem test_d_probe :
    (next? (step { d1 .dProbe 30 true with estLatch := 3#64 })).map (fun t => (t.phase, t.clk.pos, t.pendValid, t.out)) =
      some (.dHead, 33#64, false, [fr 0 30 32, pg 32]) := by decide

/-- The probe of V-D6, which crosses once the capture has ended. -/
theorem test_d_probe_crosses :
    (next? (step { st 2#32 .dProbe 20 true (tr 0 [10, 15, 17]) 15 [line 0 15 (tr 0 [])] with
      pendValid := true, pendStart := 15#64, estLatch := 3#64 })).map (fun t => t.out) =
      some [fr 0 15 16, pg 16, dot 0 17, up 17] := by decide

theorem test_close_and_open :
    (next? (exec (.opCloseAndOpen 15#64) (d1 .dAdvance 10 true))).map (fun t => t.out) =
      some [fr 0 10 14, pg 14, dot 0 15, down 15] := by decide

/-! ## Stops and the environment: V-X1, V-X3 -/

theorem test_cancel :
    (next? (step { q4 false with schedule := [.host .cancel] })).map (fun t => t.phase) = some .cancelled ∧
      (next? (step { w1 35 .done with schedule := [.host .cancel] })).map (fun t => t.phase) = some .done := by decide

theorem test_final_phases_stay :
    [Phase.done, .cancelled, .stopped].all (fun p => next? (step (w1 35 p)) == some (w1 35 p)) = true := by decide

theorem test_producer_moves :
    (next? (step { p2 80 with schedule := [.host (.append 20)] })).map (fun t => t.producer) = some (pr 100 false) ∧
      (next? (step { p2 100 with schedule := [.host .endCapture] })).map (fun t => t.producer) = some (pr 100 false) ∧
      (next? (step { p2 131 with schedule := [.host .endCapture] })).map (fun t => t.producer) = some (pr 131 true) := by decide

theorem test_new_run :
    (next? (step { w1 35 .done with out := [pg 3], schedule := [.host (.newRun (pr 7 false))] })).map
        (fun t => (t.phase, t.clk.pos, t.out, t.sink)) = some (.idle, 0#64, [], [[pg 3]]) := by decide

/-! ## Witnesses: states and operands that meet a statement's hypotheses together -/

theorem witness_turn :
    State.reset.schedule = [] ∧
      ∃ rest, ({ State.reset with schedule := [.block, .host .cancel] } : State).schedule = .block :: rest :=
  ⟨rfl, [.host .cancel], rfl⟩

theorem witness_accepted :
    (Instr.cfgDualEdge, 2#32, Phase.dHead) ∈ [(Instr.cfgEdgeRise, 0#32, Phase.eSeek), (.cfgEdgeFall, 1#32, .eSeek),
      (.cfgDualEdge, 2#32, .dHead), (.cfgCsRise, 4#32, .qInit), (.cfgCsFall, 5#32, .qInit)] ∧
    (∀ s ∈ [fresh 2 one none (tr 0 []) 1 true, fresh 4 one cs1 (tr 0 []) 1 true],
      1 ≤ s.inputs.data.reduceOption.length ∧ s.inputs.data.reduceOption.length ≤ s.config.maxData) ∧
    (fresh 2 one none (tr 0 []) 1 true).inputs.cs.isSome = decide (Phase.dHead = .qInit) ∧
    (fresh 4 one cs1 (tr 0 []) 1 true).inputs.cs.isSome = decide (Phase.qInit = .qInit) := by decide

theorem witness_reserved :
    (Instr.cfgReservedCsDual, 0x03#8) ∈
        [(Instr.cfgReservedMode3, 0x02#8), (.cfgReservedCsDual, 0x03#8), (.cfgReservedCsMode3, 0x02#8)] ∧
      (Instr.cfgReservedBits 1#29 0#3).wf = true := by decide

theorem witness_decode_encode : (Instr.cfgReservedBits 1#29 2#3).wf = true ∧
    encode (.cfgReservedBits 1#29 2#3) = some (.cfg 10#32) := by decide

theorem witness_sample :
    linesBefore s3.data 40#64 = true ∧ s3.producer.readable 40#64 = true ∧ masksOk s3.data = true ∧ s3.data.length ≤ 16 := by
  decide

/-- One state for each clause: a line past the sample, a live capture at its last buffered sample plus
one, and an empty ended capture. -/
theorem witness_sample_stops_or_holds :
    s3.data ≠ [] ∧ linesBefore (e7 20 false).data 9#64 = false ∧
      (linesBefore (e7 20 false).data 20#64 = true ∧ (e7 20 false).producer.readable 20#64 = false) ∧
      (linesBefore (e7 0 true).data 20#64 = true ∧ (e7 0 true).producer.readable 20#64 = false) ∧
      (e7 0 true).data ≠ [] ∧ (e7 20 false).data ≠ [] := by decide

theorem witness_config : State.reset.config.wf ∧ (10#64 : Pos).toNat ≤ (10#64 : Pos).toNat := by decide

theorem witness_seek :
    Memory.wf (w1 0 .eSeek) = true ∧ cfgAct (w1 0 .eSeek).cfg = some true ∧
      (w1 0 .eSeek).clk.trace.nextActive true (w1 0 .eSeek).clk.pos = some 10#64 ∧ 10#64 < (w1 0 .eSeek).producer.buffered ∧
      Memory.wf (w1 30 .eSeek) = true ∧
      (w1 30 .eSeek).producer.known ((w1 30 .eSeek).clk.trace.nextActive true (w1 30 .eSeek).clk.pos) = false := by decide

theorem witness_finish_real :
    (w1 10 .eEdge).clk.trace.nextEdge (w1 10 .eEdge).clk.pos = some 15#64 ∧ 15#64 < (w1 10 .eEdge).producer.buffered ∧
      (w1 10 .eEdge).clk.trace.nextEdge 15#64 = some 20#64 ∧ 20#64 < (w1 10 .eEdge).producer.buffered ∧
      (w1 30 .eEdge).clk.trace.nextEdge (w1 30 .eEdge).clk.pos = some 35#64 ∧ 35#64 < (w1 30 .eEdge).producer.buffered ∧
      (w1 30 .eEdge).producer.known ((w1 30 .eEdge).clk.trace.nextEdge 35#64) = false := by decide

/-- The two resolved branches are those of `witness_finish_real`; here also the third, at W3's edge. -/
theorem witness_edge_phase :
    (∀ s ∈ [w1 10 .eEdge, w1 30 .eEdge, w3],
      cfgAct s.cfg = some true ∧ linesBefore s.data s.clk.pos = true ∧ s.producer.readable s.clk.pos = true) ∧
      w3.producer.known (w3.clk.trace.nextEdge w3.clk.pos) = false := by decide

/-- Overflow, hold at the boundary `B = S + e`, crossing and provisional. -/
theorem witness_edge_probe :
    (∀ s ∈ [e9, e7 20 false, e7 21 false, w3], s.config.estClamp < s.estLatch.toNat ∧ s.sLatch = s.clk.pos) ∧
      2 ^ 64 ≤ e9.clk.pos.toNat + e9.estLatch.toNat ∧
      (∀ s ∈ [e7 20 false, e7 21 false, w3], s.clk.pos.toNat + s.estLatch.toNat < 2 ^ 64) ∧
      ((e7 20 false).producer.ended = false ∧
        (e7 20 false).producer.buffered.toNat ≤ (e7 20 false).clk.pos.toNat + (e7 20 false).estLatch.toNat) ∧
      ((e7 21 false).clk.pos.toNat + (e7 21 false).estLatch.toNat < (e7 21 false).producer.buffered.toNat ∧
        (e7 21 false).clk.trace.nextEdge (e7 21 false).clk.pos = some 12#64 ∧
        (12#64 : Pos).toNat ≤ (e7 21 false).clk.pos.toNat + (e7 21 false).estLatch.toNat) ∧
      w3.producer.ended = true ∧ w3.clk.trace.nextEdge w3.clk.pos = none := by decide

/-- `CFG_RESERVED_BITS` with no reserved bit set, on the dual-edge word, clears `PEND_VALID` as `CFG_DUAL_EDGE` does. -/
theorem test_ill_formed_dual_start :
    [Instr.cfgReservedBits 0#29 2#3, .cfgDualEdge].map (fun i =>
      (next? (exec i { fresh 2 one none (tr 0 []) 1 true with pendValid := true })).map (fun t => (t.phase, t.pendValid))) =
      [some (.dHead, false), some (.dHead, false)] := by decide

/-- `S_LATCH` alone past the top: 42_edge_decoder R135 words the fault on `S + e`. -/
theorem test_e_probe_latch_overflow :
    (next? (step { e7 21 false with sLatch := BitVec.ofNat 64 (2 ^ 64 - 5) })).map (fun t => (t.phase, t.cause, t.out)) =
      some (.stopped, 0x11#8, []) := by decide

/-- With no data line too, `close_and_open` reads no level past a live capture (20_memory R54). -/
theorem test_close_and_open_unbuffered :
    next? (exec (.opCloseAndOpen 5#64) State.reset) = some State.reset := by decide

/-- Chip-select low at 0 (V-Q3), high at 0 (W5), never falling, and not yet readable. -/
theorem witness_q_init :
    (∃ c, (withCs (w5 .qInit 0 0) (tr 0 [50]) 0).cs = some c ∧ (w5 .qInit 0 0).producer.readable c.pos = true ∧
      c.trace.level c.pos = false) ∧
    (∃ c, (w5 .qInit 0 0).cs = some c ∧ (w5 .qInit 0 0).producer.readable c.pos = true ∧ c.trace.level c.pos = true ∧
      c.trace.nextEdge c.pos = some 100#64 ∧ 100#64 < (w5 .qInit 0 0).producer.buffered ∧ (w5 .qInit 0 0).clk.pos ≤ 100#64) ∧
    (∃ c, (withCs (w5 .qInit 0 0) (tr 1 []) 0).cs = some c ∧ c.trace.level c.pos = true ∧
      (w5 .qInit 0 0).producer.known (c.trace.nextEdge c.pos) = false) ∧
    (pr 0 false).readable 0#64 = false :=
  ⟨⟨_, rfl, by decide⟩, ⟨_, rfl, by decide⟩, ⟨_, rfl, by decide⟩, by decide⟩

/-- The clock first (W5), chip-select first at a tie (V-Q1), neither (V-Q4). -/
theorem witness_race :
    (∃ c, (w5race 105 0).cs = some c ∧ cfgAct (w5race 105 0).cfg = some true ∧
      (w5race 105 0).clk.trace.nextActive true (w5race 105 0).sLatch = some 110#64 ∧
      110#64 < (w5race 105 0).producer.buffered ∧ (w5race 105 0).clk.pos ≤ 110#64 ∧
      ∀ q, c.trace.nextEdge c.pos = some q → 110#64 < q) ∧
    (∃ c, q1.cs = some c ∧ cfgAct q1.cfg = some true ∧ c.trace.nextEdge c.pos = some 30#64 ∧
      30#64 < q1.producer.buffered ∧ ∀ p, q1.clk.trace.nextActive true q1.sLatch = some p → 30#64 ≤ p) ∧
    (∃ c, (q4 false).cs = some c ∧ cfgAct (q4 false).cfg = some true ∧
      (q4 false).producer.known ((q4 false).clk.trace.nextActive true (q4 false).sLatch) = false ∧
      (q4 false).producer.known (c.trace.nextEdge c.pos) = false) :=
  ⟨⟨_, rfl, by decide, by decide, by decide, by decide, forall_eq_some (x := 120#64) (by decide) (by decide)⟩,
    ⟨_, rfl, by decide, by decide, by decide, forall_eq_some (x := 30#64) (by decide) (by decide)⟩,
    ⟨_, rfl, by decide⟩⟩

/-- The race with the clock cursor at 115, past the active edge 110 after `S_LATCH`. -/
def qBack : State := { w5race 115 0 with sLatch := 105#64 }

theorem witness_race_behind :
    ∃ c, qBack.cs = some c ∧ cfgAct qBack.cfg = some true ∧ qBack.clk.trace.nextActive true qBack.sLatch = some 110#64 ∧
      110#64 < qBack.producer.buffered ∧ 110#64 < qBack.clk.pos ∧ ∀ q, c.trace.nextEdge c.pos = some q → 110#64 < q :=
  ⟨_, rfl, by decide, by decide, by decide, by decide, forall_eq_some (x := 120#64) (by decide) (by decide)⟩

/-- The clock cursor does not move back (70_reset_and_hazards R225). -/
theorem test_q_race_behind :
    (next? (step qBack)).map (fun t => (t.phase, t.cause, t.clk.pos, t.out)) = some (.stopped, 0x10#8, 115#64, []) := by
  decide

/-- The same three for `Q_ALIGN`, whose race starts at the clock cursor. -/
theorem witness_align :
    (∃ c, (w5 .qAlign 100 100).cs = some c ∧ cfgAct (w5 .qAlign 100 100).cfg = some true ∧
      (w5 .qAlign 100 100).clk.trace.nextActive true (w5 .qAlign 100 100).clk.pos = some 105#64 ∧
      105#64 < (w5 .qAlign 100 100).producer.buffered ∧ ∀ q, c.trace.nextEdge c.pos = some q → 105#64 < q) ∧
    (∃ c, q1.cs = some c ∧ c.trace.nextEdge c.pos = some 30#64 ∧ 30#64 < q1.producer.buffered ∧
      ∀ p, q1.clk.trace.nextActive true q1.clk.pos = some p → 30#64 ≤ p) ∧
    (∃ c, (q4 true).cs = some c ∧
      (q4 true).producer.known ((q4 true).clk.trace.nextActive true (q4 true).clk.pos) = false ∧
      (q4 true).producer.known (c.trace.nextEdge c.pos) = false) :=
  ⟨⟨_, rfl, by decide, by decide, by decide, forall_eq_some (x := 120#64) (by decide) (by decide)⟩,
    ⟨_, rfl, by decide, by decide, forall_eq_some (x := 30#64) (by decide) (by decide)⟩,
    ⟨_, rfl, by decide⟩⟩

theorem witness_q_edge :
    cfgAct (w5 .qEdge 105 100).cfg = some true ∧ linesBefore (w5 .qEdge 105 100).data (w5 .qEdge 105 100).clk.pos = true ∧
      (w5 .qEdge 105 100).producer.readable (w5 .qEdge 105 100).clk.pos = true := by decide

theorem witness_q_deassert :
    ∃ c, (w5 .qDeassert 115 100).cs = some c ∧ c.trace.nextEdge c.pos = some 120#64 ∧
      120#64 < (w5 .qDeassert 115 100).producer.buffered := ⟨_, rfl, by decide⟩

/-- Re-assertion at 80 buffered, and at `B = 80` not yet. -/
theorem witness_q_reassert :
    (∃ c, (p2 81).cs = some c ∧ c.trace.nextEdge c.pos = some 80#64 ∧ 80#64 < (p2 81).producer.buffered ∧
      (p2 81).clk.pos ≤ 80#64) ∧
    (∃ c, (p2 80).cs = some c ∧ (p2 80).producer.known (c.trace.nextEdge c.pos) = false) :=
  ⟨⟨_, rfl, by decide⟩, ⟨_, rfl, by decide⟩⟩

theorem witness_d_head :
    ((d1 .dHead 30 true).pendValid = true ∧
      (d1 .dHead 30 true).producer.known ((d1 .dHead 30 true).clk.trace.nextEdge (d1 .dHead 30 true).clk.pos) = false) ∧
    (d1 .dHead 0 false).pendValid = false ∧
    (d1 .dHead 10 true).producer.known ((d1 .dHead 10 true).clk.trace.nextEdge (d1 .dHead 10 true).clk.pos) = true := by decide

theorem witness_close_and_open :
    1 ≤ (15#64 : Pos).toNat ∧ linesBefore (d1 .dAdvance 10 true).data 15#64 = true ∧
      (d1 .dAdvance 10 true).producer.readable 15#64 = true := by decide

theorem witness_d_advance :
    ((d1 .dAdvance 10 true).clk.trace.nextEdge (d1 .dAdvance 10 true).clk.pos = some 15#64 ∧
      15#64 < (d1 .dAdvance 10 true).producer.buffered ∧ linesBefore (d1 .dAdvance 10 true).data 15#64 = true) ∧
    (d1 .dAdvance 30 false).producer.known ((d1 .dAdvance 30 false).clk.trace.nextEdge (d1 .dAdvance 30 false).clk.pos) = false := by
  decide

/-- Overflow, hold at the boundary, crossing and provisional: the states of `E_PROBE` have the same clock. -/
theorem witness_d_probe :
    2 ^ 64 ≤ e9.clk.pos.toNat + e9.estLatch.toNat ∧
      ((e7 20 false).clk.pos.toNat + (e7 20 false).estLatch.toNat < 2 ^ 64 ∧ (e7 20 false).producer.ended = false ∧
        (e7 20 false).producer.buffered.toNat ≤ (e7 20 false).clk.pos.toNat + (e7 20 false).estLatch.toNat) ∧
      ((e7 21 false).clk.pos.toNat + (e7 21 false).estLatch.toNat < (e7 21 false).producer.buffered.toNat ∧
        (e7 21 false).clk.trace.nextEdge (e7 21 false).clk.pos = some 12#64 ∧
        (12#64 : Pos).toNat ≤ (e7 21 false).clk.pos.toNat + (e7 21 false).estLatch.toNat) ∧
      w3.clk.pos.toNat + w3.estLatch.toNat < 2 ^ 64 ∧ w3.producer.ended = true ∧ w3.clk.trace.nextEdge w3.clk.pos = none := by
  decide

theorem witness_final :
    (w1 35 .done).phase.final = true ∧ (∀ p rest, (w1 35 .done).schedule ≠ .host (.newRun p) :: rest) ∧
      step (w1 35 .done) = .next (w1 35 .done) := ⟨rfl, (by intro p rest h; cases h), rfl⟩

theorem witness_cancel :
    ({ q4 false with schedule := [.host .cancel] } : State).schedule = .host .cancel :: [] ∧ (q4 false).phase.final = false := by
  decide

theorem witness_producer_moves :
    ((p2 80).producer.ended = false ∧ 0 < 20 ∧ (p2 80).producer.buffered.toNat + 20 < 2 ^ 64) ∧
      ∀ t ∈ (p2 131).captured, t.fits (p2 131).producer.buffered = true := by decide

theorem witness_new_run :
    (w1 35 .done).phase.final = true ∧ (w1 35 .done).inputs.usable (pr 7 true) = true := by decide

/-- For the statements on every operation's next state. -/
theorem witness_exec_next :
    (∃ t, exec .phEEdge (w1 10 .eEdge) = .next t) ∧
      (∃ t, exec .phEProbe e9 = .next t ∧ t.phase = .stopped) ∧ (∃ t, exec .phESeek (w1 35 .eSeek) = .next t ∧ t.phase = .done) ∧
      (w1 35 .eSeek).phase.final = false ∧ e9.phase.final = false :=
  ⟨⟨_, rfl⟩, ⟨_, rfl, by decide⟩, ⟨_, rfl, by decide⟩, by decide, by decide⟩

/-! ## States of the invariant -/

/-- A chip-select run in its second frame (P2 after its step 5). -/
def mid : State :=
  { withCs (st 4#32 .qRace 50 false (tr 0 [25, 27, 35, 37, 45, 47, 85, 87, 95, 97]) 35
      [line 0 35 (tr 0 [30, 90]), line 1 35 (tr 1 [40])]) (tr 1 [20, 60, 80, 130]) 20 with
    sLatch := 35#64, wLatch := 3#16, seq := 1#64, lastW := 9#64, lastWKnown := true, progress := 34#64
    out := [dot 0 25, dot 1 25, up 25, frq 2 25 34 0, pg 34, dot 0 35, dot 1 35, up 35] }

theorem witness_mid_invariant : mid.Inv :=
  ⟨by decide, by decide, by decide, by decide, by decide, by decide, by decide, by decide, by decide, by decide⟩

theorem witness_mid_step : (∀ p rest, mid.schedule ≠ .host (.newRun p) :: rest) ∧ ∃ t, step mid = .next t :=
  ⟨(by intro p rest h; cases h), ⟨_, rfl⟩⟩

theorem witness_mid_numbered : mid.numbered = true ∧ ∃ t, blockStep mid = .next t := ⟨by decide, ⟨_, rfl⟩⟩

/-- Its step appends a second frame, numbered 1; the same race in a fresh assertion appends one numbered 0. -/
theorem witness_numbered_frame :
    (next? (step mid)).map (fun t => framesOf t.out) =
        some (framesOf mid.out ++ [{ value := 3#16, startPos := 35#64, endPos := 44#64, seq := some 1#64 }]) ∧
      (next? (step { mid with seq := 0#64, newAssert := true })).map (fun t => (framesOf t.out).map (fun f => f.seq)) =
        some [some 0#64, some 0#64] := by decide

/-- An assertion begins: `NEW_ASSERT` goes from 0 to 1 (P2, step 10). -/
theorem witness_assertion_begins :
    (p2 100).newAssert = false ∧ (next? (step (p2 100))).map (fun t => t.newAssert) = some true := by decide

theorem witness_fresh_assertion_invariant :
    ({ mid with seq := 0#64, newAssert := true } : State).Inv ∧
      ({ mid with seq := 0#64, newAssert := true } : State).numbered = true :=
  ⟨⟨by decide, by decide, by decide, by decide, by decide, by decide, by decide, by decide, by decide, by decide⟩, by decide⟩

/-- The latched bindings of an `IDLE` state are those of reset: another does not meet the invariant. -/
theorem test_invariant_idle_bindings :
    ({ State.reset with clk := { trace := tr 0 [5], pos := 0#64 }, producer := pr 1 true } : State).phaseOk = false := by
  decide

/-- Chip-select states of the invariant: on an active edge, before a deassertion, and at a re-assertion (P2). -/
def midEdge : State := { mid with phase := .qEdge, clk := { mid.clk with pos := 35#64 } }

def midDeassert : State :=
  { mid with phase := .qDeassert, producer := pr 61 false, clk := { mid.clk with pos := 45#64 }, progress := 59#64
             out := [frq 2 25 34 0, pg 34, frq 3 35 59 1, pg 59], seq := 2#64 }

def midReassert : State :=
  { midDeassert with phase := .qReassert, producer := pr 81 false, progress := 60#64, cs := some { trace := tr 1 [20, 60, 80, 130], pos := 60#64 }
                     out := [frq 2 25 34 0, pg 34, frq 3 35 59 1, pg 59, pg 60] }

theorem witness_active_low :
    midEdge.Inv ∧ midDeassert.Inv ∧ midReassert.Inv ∧
      [midEdge, midDeassert, midReassert].map (fun s => (next? (blockStep s)).map (fun t => t.phase)) =
        [some .qRace, some .qReassert, some .qAlign] :=
  ⟨⟨by decide, by decide, by decide, by decide, by decide, by decide, by decide, by decide, by decide, by decide⟩,
    ⟨by decide, by decide, by decide, by decide, by decide, by decide, by decide, by decide, by decide, by decide⟩,
    ⟨by decide, by decide, by decide, by decide, by decide, by decide, by decide, by decide, by decide, by decide⟩, by decide⟩

/-- An edge-gated run on an active edge, for the phases that never hold. -/
theorem witness_edge_invariant : (w1 10 .eEdge).Inv ∧ (w1 10 .eEdge).phase = .eEdge :=
  ⟨⟨by decide, by decide, by decide, by decide, by decide, by decide, by decide, by decide, by decide, by decide⟩, rfl⟩

/-- A run that is done in its next step. -/
theorem witness_done_invariant :
    (w1 35 .eSeek).Inv ∧ (∃ t, blockStep (w1 35 .eSeek) = .next t ∧ t.phase = .done) ∧ (w1 35 .eSeek).phase ≠ .done :=
  ⟨⟨by decide, by decide, by decide, by decide, by decide, by decide, by decide, by decide, by decide, by decide⟩,
    ⟨_, rfl, by decide⟩, by decide⟩

theorem witness_backward_sample : ∃ l ∈ mid.data, 34#64 < l.cursor.pos := ⟨_, List.mem_cons_self, by decide⟩

/-- V-S3: three lines, the middle one low, sampled at 40. -/
theorem witness_word :
    masksOk s3.data = true ∧ s3.data.length ≤ 16 ∧ cfgAct s3.cfg = some true ∧ linesBefore s3.data s3.clk.pos = true ∧
      s3.producer.readable s3.clk.pos = true := by decide

/-- The next edge at 15 lies in the probe's window, and the data cursor at 16 is past it. -/
def dBack : State := { d1 .dProbe 10 true with estLatch := 10#64, data := [line 0 16 (tr 0 [])] }

/-- A data cursor at 11 past the clock's at 10, and the one of `dBack`. -/
theorem witness_backward_phases :
    (line 0 11 (tr 0 []) ∈ ({ w1 10 .eEdge with data := [line 0 11 (tr 0 [])] } : State).data ∧
      cfgAct (w1 10 .eEdge).cfg = some true ∧ (w1 10 .eEdge).clk.pos < (line 0 11 (tr 0 [])).cursor.pos) ∧
    line 0 16 (tr 0 []) ∈ dBack.data ∧ dBack.clk.trace.nextEdge dBack.clk.pos = some 15#64 ∧
      15#64 < dBack.producer.buffered ∧ 15#64 < (line 0 16 (tr 0 [])).cursor.pos ∧
      dBack.clk.pos.toNat + dBack.estLatch.toNat < 2 ^ 64 ∧
      (15#64 : Pos).toNat ≤ dBack.clk.pos.toNat + dBack.estLatch.toNat ∧ dBack.producer.ended = true := by decide

/-- The chip-select's next edge at 80 lies behind a clock cursor at 85; for `Q_INIT` chip-select is high. -/
theorem witness_backward_sync :
    (∃ c, ({ p2 100 with clk := { (p2 100).clk with pos := 85#64 } } : State).cs = some c ∧
      c.trace.nextEdge c.pos = some 80#64 ∧ 80#64 < (p2 100).producer.buffered ∧ (80#64 : Pos) < 85#64 ∧
      (p2 100).producer.readable c.pos = true ∧ c.trace.level c.pos = true) := ⟨_, rfl, by decide⟩

theorem witness_edge_loop :
    (∃ t, exec .cfgEdgeRise (fresh 0 one none (tr 0 []) 1 true) = .next t ∧ t.phase ≠ .stopped) ∧
      (w1 10 .eEdge).phase ∈ [.eSeek, .eEdge, .eProbe] ∧ ∃ t, step (w1 10 .eEdge) = .next t :=
  ⟨⟨_, rfl, by decide⟩, by decide, ⟨_, rfl⟩⟩

theorem witness_live : Memory.wf mid = true ∧ mid.producer.ended = false ∧ mid.phase ≠ .idle := by decide

theorem witness_static :
    (w1 10 .eEdge).producer.ended = true ∧ (w1 10 .eEdge).producer.buffered ≠ 0#64 ∧ 99#64 ≠ 0#64 ∧
      ∀ t ∈ (w1 10 .eEdge).traces, t.fits (w1 10 .eEdge).producer.buffered = true ∧ t.fits 99#64 = true := by decide

theorem witness_longer_capture :
    mid.phase ∈ [.qInit, .qAlign, .qEdge, .qRace, .qDeassert, .qReassert] ∧ mid.producer.ended = false ∧
      mid.producer.buffered ≤ (pr 100 true).buffered ∧ ∃ t, blockStep mid = .next t ∧ t ≠ mid :=
  ⟨by decide, by decide, by decide, ⟨_, rfl, by decide⟩⟩

/-- V-D1 and W1 before their start steps. -/
theorem witness_static_runs :
    ∀ s ∈ [fresh 2 [some (tr 0 [])] none (tr 0 [10, 15, 22, 30]) 31 true,
        fresh 0 [some (tr 0 [12]), some (tr 1 [22])] none (tr 0 [10, 15, 20, 25, 30, 35]) 36 true],
      s.phase = .idle ∧ s.schedule = [] ∧ s.config = {} ∧ s.inputs.cs = none ∧ 1 ≤ s.inputs.lines.length ∧
        s.inputs.lines.length ≤ 16 ∧ s.producer.ended = true ∧ s.inputs.usable s.producer = true ∧
        s.producer.buffered.toNat ≤ 10 ^ 15 ∧ s.lastWKnown = false ∧ s.out = [] := by decide

/-- The frames the statements expect of V-D1 and W1 are those the spec lists. -/
theorem test_static_frames :
    (dualFrames {} [line 0 0 (tr 0 [])] false 0#64 [10#64, 15#64, 22#64, 30#64]).map .frame =
        [fr 0 10 14, fr 0 15 21, fr 0 22 29, fr 0 30 32] ∧
      (edgeFrames {} [line 0 0 (tr 0 [12]), line 1 0 (tr 1 [22])] false 0#64 [10#64, 15#64, 20#64, 25#64, 30#64, 35#64]).map
        .frame = [fr 2 10 19, fr 3 20 29, fr 1 30 34] := by decide

end Sys2Proof.Tests
end

section
/-! SUPPORT. The output stream is written and never read: with other records put before `OUT` every
operation answers the same, and appends the same records (10_state R37, R39). -/

namespace Sys2Proof.Machine

/-! ## Values carried through a result -/

/-- The result with its value, if it completes, changed by `f`. -/
def Res.map {α β : Type} (f : α → β) (r : Res α) : Res β := r.bind fun a => .ok (f a)

@[simp] theorem Res.map_ok {α β : Type} (f : α → β) (a : α) : (Res.ok a).map f = .ok (f a) := rfl
@[simp] theorem Res.map_raise {α β : Type} (f : α → β) (c : Cause) : (Res.raise c).map f = .raise c := rfl

theorem Res.map_bind {α β γ : Type} (f : β → γ) (r : Res α) (k : α → Res β) :
    (r.bind k).map f = r.bind fun a => (k a).map f := by
  cases r <;> rfl

theorem Res.bind_map {α β γ : Type} (f : α → β) (r : Res α) (k : β → Res γ) :
    (r.map f).bind k = r.bind fun a => k (f a) := by
  cases r <;> rfl

theorem Res.bind_assoc {α β γ : Type} (r : Res α) (k : α → Res β) (j : β → Res γ) :
    (r.bind k).bind j = r.bind fun a => (k a).bind j := by
  cases r <;> rfl

/-- An outcome with its next state, if there is one, changed by `f`. -/
def mapNext (f : State → State) (o : Host.Outcome State Fault Refusal) : Host.Outcome State Fault Refusal :=
  match o with
  | .next t => .next (f t)
  | .fault e => .fault e
  | .refused e => .refused e

/-! ## The state with records put before its output -/

/-- The state with the records `o` put before its output stream. -/
def State.prependOut (o : List Record) (s : State) : State := { s with out := o ++ s.out }

section
variable (o : List Record) (s : State)

@[simp] theorem State.prependOut_config : (s.prependOut o).config = s.config := rfl
@[simp] theorem State.prependOut_inputs : (s.prependOut o).inputs = s.inputs := rfl
@[simp] theorem State.prependOut_producer : (s.prependOut o).producer = s.producer := rfl
@[simp] theorem State.prependOut_cfg : (s.prependOut o).cfg = s.cfg := rfl
@[simp] theorem State.prependOut_clk : (s.prependOut o).clk = s.clk := rfl
@[simp] theorem State.prependOut_data : (s.prependOut o).data = s.data := rfl
@[simp] theorem State.prependOut_sLatch : (s.prependOut o).sLatch = s.sLatch := rfl
@[simp] theorem State.prependOut_wLatch : (s.prependOut o).wLatch = s.wLatch := rfl
@[simp] theorem State.prependOut_estLatch : (s.prependOut o).estLatch = s.estLatch := rfl
@[simp] theorem State.prependOut_pendValid : (s.prependOut o).pendValid = s.pendValid := rfl
@[simp] theorem State.prependOut_pendVal : (s.prependOut o).pendVal = s.pendVal := rfl
@[simp] theorem State.prependOut_pendStart : (s.prependOut o).pendStart = s.pendStart := rfl
@[simp] theorem State.prependOut_act : (s.prependOut o).act = s.act := rfl
@[simp] theorem State.prependOut_csCursor : (s.prependOut o).csCursor = s.csCursor := rfl
@[simp] theorem State.prependOut_estimateWidth : (s.prependOut o).estimateWidth = s.estimateWidth := rfl
@[simp] theorem State.prependOut_provisionalEnd (p e : Pos) :
    (s.prependOut o).provisionalEnd p e = s.provisionalEnd p e := rfl

/-! ### Register updates -/

@[simp] theorem State.setPhase_prependOut (p : Phase) :
    (s.prependOut o).setPhase p = (s.setPhase p).prependOut o := rfl
@[simp] theorem State.setClk_prependOut (c : Cursor) :
    (s.prependOut o).setClk c = (s.setClk c).prependOut o := rfl
@[simp] theorem State.setCs_prependOut (c : Option Cursor) :
    (s.prependOut o).setCs c = (s.setCs c).prependOut o := rfl
@[simp] theorem State.setData_prependOut (ls : List Line) :
    (s.prependOut o).setData ls = (s.setData ls).prependOut o := rfl
@[simp] theorem State.setFrameLatch_prependOut (p : Pos) (w : Word) :
    (s.prependOut o).setFrameLatch p w = (s.setFrameLatch p w).prependOut o := rfl
@[simp] theorem State.setEstLatch_prependOut (e : Pos) :
    (s.prependOut o).setEstLatch e = (s.setEstLatch e).prependOut o := rfl
@[simp] theorem State.setPendValid_prependOut (v : Bool) :
    (s.prependOut o).setPendValid v = (s.setPendValid v).prependOut o := rfl
@[simp] theorem State.setProgress_prependOut (p : Pos) :
    (s.prependOut o).setProgress p = (s.setProgress p).prependOut o := rfl
@[simp] theorem State.setRet_prependOut (v : BitVec 64) :
    (s.prependOut o).setRet v = (s.setRet v).prependOut o := rfl
@[simp] theorem State.openPending_prependOut (w : Word) (p : Pos) :
    (s.prependOut o).openPending w p = (s.openPending w p).prependOut o := rfl
@[simp] theorem State.beginAssertion_prependOut :
    (s.prependOut o).beginAssertion = s.beginAssertion.prependOut o := rfl
@[simp] theorem State.forgetWidth_prependOut :
    (s.prependOut o).forgetWidth = s.forgetWidth.prependOut o := rfl

@[simp] theorem State.emit_prependOut (rs : List Record) :
    (s.prependOut o).emit rs = (s.emit rs).prependOut o := by
  simp [State.emit, State.prependOut]

/-! ### Shared operations -/

@[simp] theorem State.reportProgress_prependOut (p : Pos) :
    (s.prependOut o).reportProgress p = (s.reportProgress p).prependOut o := by
  simp [State.reportProgress]

@[simp] theorem State.markArrow_prependOut (p : Pos) (l : Level) :
    (s.prependOut o).markArrow p l = (s.markArrow p l).prependOut o := by
  simp [State.markArrow]

@[simp] theorem State.commit_prependOut (v : Word) (p q : Pos) :
    (s.prependOut o).commit v p q = (s.commit v p q).prependOut o := by
  simp [State.commit_eq, State.prependOut, State.frameSeq]

@[simp] theorem State.closePending_prependOut (e : Pos) :
    (s.prependOut o).closePending e = (s.closePending e).prependOut o := by
  cases h : s.pendValid <;> simp [State.closePending, h]

@[simp] theorem State.sampleWord_prependOut (p : Pos) :
    (s.prependOut o).sampleWord p = (s.sampleWord p).map fun r => (r.1.prependOut o, r.2) := by
  by_cases h : (s.data.any fun l => decide (p < l.cursor.pos)) = true <;>
    simp [State.sampleWord, h, Res.map_bind]

@[simp] theorem State.toActiveEdge_prependOut (a : Option Pos) :
    (s.prependOut o).toActiveEdge a = (s.toActiveEdge a).map (State.prependOut o) := by
  cases a <;> simp [State.toActiveEdge, Res.map_bind]

@[simp] theorem State.syncClock_prependOut (c : Cursor) :
    (s.prependOut o).syncClock c = (s.syncClock c).map (State.prependOut o) := by
  simp [State.syncClock, Res.map_bind]

@[simp] theorem State.seekActive_prependOut :
    (s.prependOut o).seekActive = s.seekActive.map (State.prependOut o) := by
  simp [State.seekActive, Res.map_bind]

@[simp] theorem State.finishReal_prependOut (w : Word) (p : Pos) :
    (s.prependOut o).finishReal w p = (s.finishReal w p).map (State.prependOut o) := by
  simp [State.finishReal, Res.map_bind, apply_ite (Res.map (State.prependOut o))]

@[simp] theorem State.closeAndOpen_prependOut (e : Pos) :
    (s.prependOut o).closeAndOpen e = (s.closeAndOpen e).map (State.prependOut o) := by
  simp [State.closeAndOpen, Res.map_bind, Res.bind_map]

@[simp] theorem State.toRealEdge_prependOut :
    (s.prependOut o).toRealEdge = s.toRealEdge.map (State.prependOut o) := by
  simp [State.toRealEdge, Res.map_bind]

/-! ### Phases -/

theorem State.eSeek_prependOut : (s.prependOut o).eSeek = s.eSeek.map (State.prependOut o) := by
  simp [State.eSeek, Res.map_bind, Res.bind_map]

theorem State.eEdge_prependOut : (s.prependOut o).eEdge = s.eEdge.map (State.prependOut o) := by
  simp [State.eEdge, Res.map_bind, Res.bind_map, apply_ite (Res.map (State.prependOut o))]

theorem State.eProbe_prependOut : (s.prependOut o).eProbe = s.eProbe.map (State.prependOut o) := by
  simp [State.eProbe, Res.map_bind, apply_ite (Res.map (State.prependOut o))]

theorem State.qInit_prependOut : (s.prependOut o).qInit = s.qInit.map (State.prependOut o) := by
  simp only [State.qInit, prependOut_csCursor, prependOut_producer, syncClock_prependOut, Res.map_bind]
  congr 1; funext cs
  congr 1; funext l
  cases l <;> simp [Res.bind_assoc, Res.bind_map]

theorem State.qAlign_prependOut : (s.prependOut o).qAlign = s.qAlign.map (State.prependOut o) := by
  simp [State.qAlign, Res.map_bind, apply_ite (Res.map (State.prependOut o))]

theorem State.qEdge_prependOut : (s.prependOut o).qEdge = s.qEdge.map (State.prependOut o) := by
  simp [State.qEdge, Res.map_bind, Res.bind_map]

theorem State.qRace_prependOut : (s.prependOut o).qRace = s.qRace.map (State.prependOut o) := by
  simp [State.qRace, Res.map_bind, apply_ite (Res.map (State.prependOut o))]

theorem State.qDeassert_prependOut : (s.prependOut o).qDeassert = s.qDeassert.map (State.prependOut o) := by
  simp [State.qDeassert, Res.map_bind]

theorem State.qReassert_prependOut : (s.prependOut o).qReassert = s.qReassert.map (State.prependOut o) := by
  simp [State.qReassert, Res.map_bind, Res.bind_map]

theorem State.dHead_prependOut : (s.prependOut o).dHead = s.dHead.prependOut o := by
  simp [State.dHead, apply_ite (State.prependOut o)]

theorem State.dProbe_prependOut : (s.prependOut o).dProbe = s.dProbe.map (State.prependOut o) := by
  simp [State.dProbe, Res.map_bind, apply_ite (Res.map (State.prependOut o))]

theorem State.start_prependOut (w : BitVec 32) : (s.prependOut o).start w = (s.start w).prependOut o := by
  unfold State.start
  rw [State.prependOut_config, State.prependOut_inputs]
  cases startCheck s.config w s.inputs with
  | some c => rfl
  | none =>
    simp only [State.enter]
    cases cfgFirstPhase w <;> rfl

end

/-! ## Every operation -/

/-- A step ends the same way whatever stands in the output stream before it. -/
theorem Res.settle_prependOut (o : List Record) (r : Res State) (s : State) :
    (r.map (State.prependOut o)).settle (s.prependOut o) = mapNext (State.prependOut o) (r.settle s) := by
  cases r <;> rfl

/-- An operation that answers a result settles the same under a longer output stream, when its result does. -/
theorem settle_prependOut_of_eq {o : List Record} {s : State} {r r' : Res State}
    (h : r' = r.map (State.prependOut o)) :
    r'.settle (s.prependOut o) = mapNext (State.prependOut o) (r.settle s) := by
  rw [h, Res.settle_prependOut]

/-- No operation reads the output stream: with records put before it, each answers the same next state
with those records before its output. -/
theorem exec_prependOut (i : Instr) (o : List Record) (s : State) :
    exec i (s.prependOut o) = mapNext (State.prependOut o) (exec i s) := by
  cases i with
  | cfgEdgeRise | cfgEdgeFall | cfgDualEdge | cfgReservedMode3 | cfgCsRise | cfgCsFall | cfgReservedCsDual
  | cfgReservedCsMode3 | cfgReservedBits _ _ | phIdleStart =>
    exact congrArg Host.Outcome.next (s.start_prependOut o _)
  | phESeek => exact settle_prependOut_of_eq (s.eSeek_prependOut o)
  | phEEdge => exact settle_prependOut_of_eq (s.eEdge_prependOut o)
  | phEProbe => exact settle_prependOut_of_eq (s.eProbe_prependOut o)
  | phQInit => exact settle_prependOut_of_eq (s.qInit_prependOut o)
  | phQAlign => exact settle_prependOut_of_eq (s.qAlign_prependOut o)
  | phQEdge => exact settle_prependOut_of_eq (s.qEdge_prependOut o)
  | phQRace => exact settle_prependOut_of_eq (s.qRace_prependOut o)
  | phQDeassert => exact settle_prependOut_of_eq (s.qDeassert_prependOut o)
  | phQReassert => exact settle_prependOut_of_eq (s.qReassert_prependOut o)
  | phDHead => exact congrArg Host.Outcome.next (s.dHead_prependOut o)
  | phDAdvance => exact settle_prependOut_of_eq (s.toRealEdge_prependOut o)
  | phDProbe => exact settle_prependOut_of_eq (s.dProbe_prependOut o)
  | phDone | phCancelled | phStopped | opEstimateWidth => rfl
  | opSampleWord p => exact settle_prependOut_of_eq (by simp [Res.map_bind, Res.bind_map])
  | opCommit v p q => exact congrArg Host.Outcome.next (s.commit_prependOut o v p q)
  | opReportProgress p => exact congrArg Host.Outcome.next (s.reportProgress_prependOut o p)
  | opMarkArrow p l => exact congrArg Host.Outcome.next (s.markArrow_prependOut o p l)
  | opFinishReal w p => exact settle_prependOut_of_eq (s.finishReal_prependOut o w p)
  | opCloseAndOpen e => exact settle_prependOut_of_eq (s.closeAndOpen_prependOut o e)
  | opSeekActive => exact settle_prependOut_of_eq (s.seekActive_prependOut o)

/-- So it is for the block's turn, whose operation `PHASE` selects. -/
theorem blockStep_prependOut (o : List Record) (s : State) :
    blockStep (s.prependOut o) = mapNext (State.prependOut o) (blockStep s) :=
  exec_prependOut (fetch s) o s

/-! ## Markers -/

/-- The state with nothing in its output stream. -/
def State.clearOut (s : State) : State := { s with out := [] }

theorem State.clearOut_prependOut (s : State) : s.clearOut.prependOut s.out = s := by
  simp [State.clearOut, State.prependOut]

/-- Dropping the markers of the stream is a change of what stands before an empty one. -/
theorem State.dropMarkers_eq_prependOut (s : State) : s.dropMarkers = s.clearOut.prependOut s.dropMarkers.out := by
  simp [State.dropMarkers, State.clearOut, State.prependOut]

/-- Markers already dropped from the records put before do not matter to dropping all of them. -/
theorem State.dropMarkers_prependOut (s t : State) :
    (t.prependOut s.dropMarkers.out).dropMarkers = (t.prependOut s.out).dropMarkers := by
  simp [State.dropMarkers, State.prependOut]

/-- Settles O36: the block's turn from an empty stream decides both turns, and the two streams differ in
the markers before it alone (10_state R39). -/
theorem markersAreAdvisory : Obligations.MarkersAreAdvisory := by
  intro s
  have hs : blockStep s = mapNext (State.prependOut s.out) (blockStep s.clearOut) := by
    rw [← blockStep_prependOut, s.clearOut_prependOut]
  have hd : blockStep s.dropMarkers = mapNext (State.prependOut s.dropMarkers.out) (blockStep s.clearOut) := by
    rw [← blockStep_prependOut, ← s.dropMarkers_eq_prependOut]
  rw [hs, hd]
  cases blockStep s.clearOut with
  | next t => exact ⟨_, rfl, s.dropMarkers_prependOut t⟩
  | fault f => rfl
  | refused r => rfl

end Sys2Proof.Machine
end

section
/-! SUPPORT. What a block's turn appends: each shared operation and each phase appends sound records
(10_state R38, 30_encoding R88 and R89) and keeps the configuration they are judged by. -/

namespace Sys2Proof.Machine

/-! ## The block's turn as one result -/

/-- What the block's turn comes to in each phase (30_encoding R84). -/
def State.turnRes (s : State) : Res State :=
  match s.phase with
  | .idle => .ok (s.start s.inputs.cfg)
  | .eSeek => s.eSeek
  | .eEdge => s.eEdge
  | .eProbe => s.eProbe
  | .qInit => s.qInit
  | .qAlign => s.qAlign
  | .qEdge => s.qEdge
  | .qRace => s.qRace
  | .qDeassert => s.qDeassert
  | .qReassert => s.qReassert
  | .dHead => .ok s.dHead
  | .dAdvance => s.toRealEdge
  | .dProbe => s.dProbe
  | .done | .cancelled | .stopped => .ok s

theorem blockStep_eq_settle (s : State) : blockStep s = s.turnRes.settle s := by
  unfold blockStep fetch State.turnRes
  cases s.phase <;> rfl

/-! ## What the invariant says where a frame is committed -/

theorem State.Inv.eProbe_latches {s : State} (hi : s.Inv) (hp : s.phase = .eProbe) :
    s.sLatch = s.clk.pos ∧ s.fitsWord s.wLatch = true := by
  have h := hi.phase
  simp only [State.phaseOk, hp, Bool.and_eq_true, beq_iff_eq] at h
  obtain ⟨⟨⟨-, hl⟩, hw⟩, -⟩ := h
  exact ⟨hl, hw⟩

theorem State.Inv.qRace_latches {s : State} (hi : s.Inv) (hp : s.phase = .qRace) :
    s.asserted = true ∧ s.sLatch = s.clk.pos ∧ s.fitsWord s.wLatch = true := by
  have h := hi.phase
  simp only [State.phaseOk, hp, Bool.and_eq_true, beq_iff_eq] at h
  obtain ⟨⟨⟨⟨ha, -⟩, -⟩, hl⟩, hw⟩ := h
  exact ⟨ha, hl, hw⟩

theorem State.Inv.dAdvance_pending {s : State} (hi : s.Inv) (hp : s.phase = .dAdvance) : s.pendingOk = true := by
  have h := hi.phase
  simp only [State.phaseOk, hp, Bool.and_eq_true] at h
  exact h.1

theorem State.Inv.dProbe_pending {s : State} (hi : s.Inv) (hp : s.phase = .dProbe) :
    s.pendingOk = true ∧ s.pendValid = true ∧ s.config.estClamp < s.estLatch.toNat := by
  have h := hi.phase
  simp only [State.phaseOk, hp, Bool.and_eq_true, decide_eq_true_eq] at h
  obtain ⟨⟨hk, hv⟩, he⟩ := h
  exact ⟨hk, hv, he⟩

/-- A pending frame starts at the clock cursor and its value has bits of data lines alone
(44_dual_edge_decoder R173). -/
theorem State.pendingOk_pending {s : State} (h : s.pendingOk = true) (hv : s.pendValid = true) :
    s.pendStart = s.clk.pos ∧ s.fitsWord s.pendVal = true := by
  simp only [State.pendingOk, hv, if_true, Bool.and_eq_true, beq_iff_eq] at h
  obtain ⟨⟨⟨⟨hs, -⟩, -⟩, hw⟩, -⟩ := h
  exact ⟨hs, hw⟩

theorem State.csCursor_eq_ok {s : State} {c : Cursor} : s.csCursor = .ok c ↔ s.cs = some c := by
  unfold State.csCursor
  cases s.cs <;> simp

/-- While chip-select is asserted its next edge is past the clock cursor (43_cs_decoder R153). -/
theorem State.asserted_nextEdge {s : State} {c : Cursor} {q : Pos} (h : s.asserted = true) (hc : s.cs = some c)
    (hq : c.trace.nextEdge c.pos = some q) : s.clk.pos < q := by
  simp only [State.asserted, hc, hq, posLt, Bool.and_eq_true, decide_eq_true_eq] at h
  exact h.2

/-! ## Values -/

/-- A bit of the sampled word is set by a line that reads 1 and has it in its mask (40_word_sampler R101). -/
theorem exists_line_of_wordAt_bit {ls : List Line} {p : Pos} {k : Nat} (h : (wordAt ls p).getLsbD k = true) :
    ∃ l ∈ ls, l.mask.getLsbD k = true := by
  induction ls with
  | nil => simp [wordAt] at h
  | cons l ls ih =>
    rw [wordAt_cons, BitVec.getLsbD_or, Bool.or_eq_true] at h
    rcases h with h | h
    · refine ⟨l, List.mem_cons_self, ?_⟩
      unfold Line.bits at h
      split at h
      · exact h
      · simp at h
    · obtain ⟨m, hm, hk⟩ := ih h
      exact ⟨m, List.mem_cons_of_mem _ hm, hk⟩

/-- The masks of the channel mapping have no bit at or above the number of lines (10_state R26). -/
theorem mask_bit_lt {ls : List Line} {l : Line} {k : Nat} (hm : masksOk ls = true) (hl : l ∈ ls)
    (hk : l.mask.getLsbD k = true) : k < ls.length := by
  have he := List.mem_map_of_mem (f := fun l : Line => l.mask) hl
  rw [beq_iff_eq.mp hm] at he
  obtain ⟨i, hi, he⟩ := List.mem_map.mp he
  rw [List.mem_range] at hi
  rw [← he] at hk
  have : k = i := by simp at hk; omega
  omega

/-- A sampled word has no bit at or above `NDATA` (40_word_sampler R101). -/
theorem wordAt_lt {ls : List Line} (hm : masksOk ls = true) (p : Pos) : (wordAt ls p).toNat < 2 ^ ls.length := by
  refine Nat.lt_pow_two_of_testBit _ fun k hk => ?_
  by_contra hb
  obtain ⟨l, hl, hlk⟩ := exists_line_of_wordAt_bit (by simpa [BitVec.testBit_toNat] using hb)
  exact absurd (mask_bit_lt hm hl hlk) (by omega)

/-- A completed sample returns the word the lines show (40_word_sampler R100, R101). -/
theorem sampleLines_word {pr : Producer} {p : Pos} {ls ls' : List Line} {w : Word}
    (h : sampleLines pr p ls = .ok (ls', w)) : w = wordAt ls p := by
  induction ls generalizing ls' w with
  | nil => cases h; rfl
  | cons l ls ih =>
    simp only [sampleLines, Res.bind_eq_ok] at h
    obtain ⟨c, hc, v, hv, r, hr, he⟩ := h
    obtain ⟨-, -, rfl⟩ := Cursor.advanceToAbsolute_eq_ok.mp hc
    obtain ⟨-, rfl⟩ := Cursor.currentLevel_eq_ok.mp hv
    cases he
    rw [wordAt_cons, ih (ls' := r.1) (w := r.2) hr]

theorem State.sampleWord_word {s t : State} {p : Pos} {w : Word} (h : s.sampleWord p = .ok (t, w)) :
    w = wordAt s.data p := by
  unfold State.sampleWord at h
  split at h
  · cases h
  · obtain ⟨r, hr, he⟩ := Res.bind_eq_ok.mp h
    cases he
    exact sampleLines_word (ls' := r.1) hr

theorem linesAt_length (ls : List Line) (p : Pos) : (linesAt ls p).length = ls.length := List.length_map ..

/-- The word a sample returns fits the lines of the state it leaves (40_word_sampler R101). -/
theorem State.fitsWord_of_sampleWord {s t : State} {p : Pos} {w : Word} (hm : masksOk s.data = true)
    (h : s.sampleWord p = .ok (t, w)) : t.fitsWord w = true := by
  rw [State.sampleWord_state h, State.sampleWord_word h]
  simpa [State.fitsWord, linesAt_length] using wordAt_lt hm p

/-- The provisional end is not before the start, and nothing wraps (41_frame_emitter R115). -/
theorem State.le_of_provisionalEnd {s : State} {p e q : Pos} (h : s.provisionalEnd p e = .ok q) : p ≤ q := by
  unfold State.provisionalEnd at h
  split at h
  · cases h
  · cases h
    rw [BitVec.le_def, BitVec.toNat_ofNat, Nat.mod_eq_of_lt (by omega)]
    omega

/-- The last sample before a later position is not before the start. -/
theorem le_sub_one_of_lt {p q : Pos} (h : p < q) : p ≤ q - 1#64 := by bv_omega

/-! ## Steps that append sound records -/

/-- From `s` to `t` the configuration and the number of lines stay, and `OUT` grows by sound records. -/
structure State.EmitsSound (s t : State) : Prop where
  cfg : t.cfg = s.cfg
  lines : t.data.length = s.data.length
  out : ∃ rs, t.out = s.out ++ rs ∧ ∀ r ∈ rs, r.sound (cfgCsEn s.cfg) s.data.length = true

namespace State.EmitsSound

theorem refl (s : State) : s.EmitsSound s := ⟨rfl, rfl, [], by simp, by simp⟩

theorem trans {s t u : State} (h : s.EmitsSound t) (k : t.EmitsSound u) : s.EmitsSound u := by
  obtain ⟨hc, hd, rs, ho, hs⟩ := h
  obtain ⟨kc, kd, qs, ko, ks⟩ := k
  rw [hc, hd] at ks
  refine ⟨kc.trans hc, kd.trans hd, rs ++ qs, by rw [ko, ho, List.append_assoc], fun r hr => ?_⟩
  exact (List.mem_append.mp hr).elim (hs r) (ks r)

/-! ### Register updates, records and the sampler, after what is appended already -/

section
variable {s t : State}

theorem setPhase {p : Phase} (h : s.EmitsSound t) : s.EmitsSound (t.setPhase p) := ⟨h.cfg, h.lines, h.out⟩
theorem setClk {c : Cursor} (h : s.EmitsSound t) : s.EmitsSound (t.setClk c) := ⟨h.cfg, h.lines, h.out⟩
theorem setCs {c : Option Cursor} (h : s.EmitsSound t) : s.EmitsSound (t.setCs c) := ⟨h.cfg, h.lines, h.out⟩
theorem setFrameLatch {p : Pos} {w : Word} (h : s.EmitsSound t) : s.EmitsSound (t.setFrameLatch p w) :=
  ⟨h.cfg, h.lines, h.out⟩
theorem setEstLatch {e : Pos} (h : s.EmitsSound t) : s.EmitsSound (t.setEstLatch e) := ⟨h.cfg, h.lines, h.out⟩
theorem setPendValid {v : Bool} (h : s.EmitsSound t) : s.EmitsSound (t.setPendValid v) := ⟨h.cfg, h.lines, h.out⟩
theorem openPending {w : Word} {p : Pos} (h : s.EmitsSound t) : s.EmitsSound (t.openPending w p) :=
  ⟨h.cfg, h.lines, h.out⟩
theorem beginAssertion (h : s.EmitsSound t) : s.EmitsSound t.beginAssertion := ⟨h.cfg, h.lines, h.out⟩
theorem forgetWidth (h : s.EmitsSound t) : s.EmitsSound t.forgetWidth := ⟨h.cfg, h.lines, h.out⟩

theorem reportProgress {p : Pos} (h : s.EmitsSound t) : s.EmitsSound (t.reportProgress p) :=
  h.trans ⟨rfl, rfl, _, rfl, by simp [Record.sound]⟩

/-- An arrow is on the clock (30_encoding R89). -/
theorem markArrow {p : Pos} {l : Level} (h : s.EmitsSound t) : s.EmitsSound (t.markArrow p l) :=
  h.trans ⟨rfl, rfl, _, rfl, by cases l <;> simp [Record.sound, arrow]⟩

/-- A commit under its precondition appends a sound frame (41_frame_emitter R111). -/
theorem commit {v : Word} {p q : Pos} (h : s.EmitsSound t) (hv : t.fitsWord v = true) (hp : p ≤ q) :
    s.EmitsSound (t.commit v p q) := by
  refine h.trans ?_
  rw [State.commit_eq]
  refine ⟨rfl, rfl, _, rfl, ?_⟩
  have hq : t.frameSeq.isSome = cfgCsEn t.cfg := by
    unfold State.frameSeq
    cases cfgCsEn t.cfg <;> rfl
  have hw : v.toNat < 2 ^ t.data.length := by simpa [State.fitsWord] using hv
  simp [Record.sound, hp, hq, hw]

/-- The sampler's dots are on the data channels (40_word_sampler R102). -/
theorem sampleWord {u : State} {p : Pos} {w : Word} (h : s.EmitsSound t) (hu : t.sampleWord p = .ok (u, w)) :
    s.EmitsSound u := by
  rw [State.sampleWord_state hu]
  refine h.trans ⟨rfl, linesAt_length t.data p, _, rfl, fun r hr => ?_⟩
  obtain ⟨i, hi, rfl⟩ := List.mem_map.mp hr
  simpa [Record.sound] using hi

end

/-! ### Shared operations -/

theorem closePending {s : State} {e : Pos} (hv : s.pendValid = true → s.fitsWord s.pendVal = true)
    (hp : s.pendValid = true → s.pendStart < e) : s.EmitsSound (s.closePending e) := by
  unfold State.closePending
  split
  · next hs => exact (refl s).commit (hv hs) (le_sub_one_of_lt (hp hs))
  · exact refl s

theorem syncClock {s t : State} {c : Cursor} (h : s.syncClock c = .ok t) : s.EmitsSound t := by
  obtain ⟨d, -, he⟩ := Res.bind_eq_ok.mp h
  cases he
  exact setClk (setCs (refl s))

theorem toActiveEdge {s t : State} {a : Option Pos} (h : s.toActiveEdge a = .ok t) : s.EmitsSound t := by
  cases a with
  | none => cases h; exact refl s
  | some p =>
    obtain ⟨c, -, he⟩ := Res.bind_eq_ok.mp h
    cases he
    exact setPhase (setClk (refl s))

theorem seekActive {s t : State} (h : s.seekActive = .ok t) : s.EmitsSound t := by
  simp only [State.seekActive, Res.bind_eq_ok] at h
  obtain ⟨a, -, c, -, he⟩ := h
  cases he
  exact setClk (refl s)

/-- The frame ends before an edge after the clock cursor, where it starts (42_edge_decoder R133). -/
theorem finishReal {s t : State} {w : Word} {p : Pos} (hp : p = s.clk.pos) (hw : s.fitsWord w = true)
    (h : s.finishReal w p = .ok t) : s.EmitsSound t := by
  subst hp
  obtain ⟨c, hc, h⟩ := Res.bind_eq_ok.mp h
  obtain ⟨i, hi, -, rfl⟩ := Cursor.advanceToNextEdge_eq_ok.mp hc
  have hsi : s.clk.pos < i := (Trace.nextEdge_some hi).2
  split at h
  · obtain ⟨d, hd, h⟩ := Res.bind_eq_ok.mp h
    obtain ⟨a, ha, -, rfl⟩ := Cursor.advanceToNextEdge_eq_ok.mp hd
    have hia : i < a := (Trace.nextEdge_some ha).2
    cases h
    exact setPhase (commit (setClk (refl s)) hw (le_sub_one_of_lt (BitVec.lt_trans hsi hia)))
  · cases h
    exact setPhase (commit (setClk (refl s)) hw (le_sub_one_of_lt hsi))

/-- The pending frame closes before the edge, and the markers stand on it (44_dual_edge_decoder R172). -/
theorem closeAndOpen {s t : State} {e : Pos} (hv : s.pendValid = true → s.fitsWord s.pendVal = true)
    (hp : s.pendValid = true → s.pendStart < e) (h : s.closeAndOpen e = .ok t) : s.EmitsSound t := by
  obtain ⟨⟨u, w⟩, hu, h⟩ := Res.bind_eq_ok.mp h
  obtain ⟨l, -, h⟩ := Res.bind_eq_ok.mp h
  cases h
  exact setPhase (openPending (markArrow (sampleWord (closePending hv hp) hu)))

/-- The next clock edge is after the pending frame's start, at the clock cursor (44_dual_edge_decoder R173). -/
theorem toRealEdge {s t : State} (hk : s.pendingOk = true) (h : s.toRealEdge = .ok t) : s.EmitsSound t := by
  obtain ⟨c, hc, h⟩ := Res.bind_eq_ok.mp h
  obtain ⟨e, he, -, rfl⟩ := Cursor.advanceToNextEdge_eq_ok.mp hc
  refine (setClk (refl s)).trans
    (closeAndOpen (s := s.setClk ⟨_, e⟩) (fun hv => (State.pendingOk_pending hk hv).2) (fun hv => ?_) h)
  change s.pendStart < e
  rw [(State.pendingOk_pending hk hv).1]
  exact (Trace.nextEdge_some he).2

/-! ### Phases -/

theorem eSeek {s t : State} (h : s.eSeek = .ok t) : s.EmitsSound t := by
  obtain ⟨u, hu, h⟩ := Res.bind_eq_ok.mp h
  cases h
  exact setPhase (seekActive hu)

theorem eEdge {s t : State} (hm : masksOk s.data = true) (h : s.eEdge = .ok t) : s.EmitsSound t := by
  obtain ⟨a, -, h⟩ := Res.bind_eq_ok.mp h
  obtain ⟨⟨u, w⟩, hu, h⟩ := Res.bind_eq_ok.mp h
  have hsu : s.EmitsSound (u.markArrow s.clk.pos a) := markArrow (sampleWord (refl s) hu)
  have hclk : (u.markArrow s.clk.pos a).clk = s.clk := by rw [State.sampleWord_state hu]; rfl
  have hw : u.fitsWord w = true := State.fitsWord_of_sampleWord hm hu
  dsimp only at h
  split at h
  · exact hsu.trans (finishReal (by rw [hclk]) hw h)
  · cases h
    exact setPhase (setEstLatch (setFrameLatch hsu))

theorem eProbe {s t : State} (hl : s.sLatch = s.clk.pos) (hw : s.fitsWord s.wLatch = true)
    (h : s.eProbe = .ok t) : s.EmitsSound t := by
  obtain ⟨q, hq, h⟩ := Res.bind_eq_ok.mp h
  obtain ⟨crosses, -, h⟩ := Res.bind_eq_ok.mp h
  split at h
  · exact finishReal hl hw h
  · cases h
    exact setPhase (commit (refl s) hw (State.le_of_provisionalEnd hq))

theorem qInit {s t : State} (h : s.qInit = .ok t) : s.EmitsSound t := by
  simp only [State.qInit, Res.bind_eq_ok] at h
  obtain ⟨c, -, l, -, u, hu, he⟩ := h
  cases he
  split at hu
  · obtain ⟨d, -, hu⟩ := Res.bind_eq_ok.mp hu
    exact setPhase (beginAssertion (syncClock hu))
  · cases hu
    exact setPhase (beginAssertion (refl s))

theorem qAlign {s t : State} (h : s.qAlign = .ok t) : s.EmitsSound t := by
  simp only [State.qAlign, Res.bind_eq_ok] at h
  obtain ⟨a, -, c, -, clockWins, -, h⟩ := h
  split at h
  · exact toActiveEdge h
  · cases h
    exact setPhase (refl s)

theorem qEdge {s t : State} (h : s.qEdge = .ok t) : s.EmitsSound t := by
  obtain ⟨a, -, h⟩ := Res.bind_eq_ok.mp h
  obtain ⟨⟨u, w⟩, hu, h⟩ := Res.bind_eq_ok.mp h
  cases h
  exact setPhase (setFrameLatch (markArrow (sampleWord (refl s) hu)))

/-- Both edges a race can end at are after the frame's start (43_cs_decoder R155). -/
theorem qRace {s t : State} (ha : s.asserted = true) (hl : s.sLatch = s.clk.pos) (hw : s.fitsWord s.wLatch = true)
    (h : s.qRace = .ok t) : s.EmitsSound t := by
  obtain ⟨act, -, h⟩ := Res.bind_eq_ok.mp h
  obtain ⟨c, hc, h⟩ := Res.bind_eq_ok.mp h
  obtain ⟨clockWins, hr, h⟩ := Res.bind_eq_ok.mp h
  cases clockWins with
  | true =>
    obtain ⟨p, hp, -, -⟩ := Producer.race_clock hr
    obtain ⟨-, hlp, -⟩ := Trace.nextActive_some hp
    rw [hp, if_pos rfl] at h
    exact (commit (refl s) hw (le_sub_one_of_lt hlp)).trans (toActiveEdge h)
  | false =>
    obtain ⟨q, hq, -, -⟩ := Producer.race_chipSelect hr
    have hlq : s.sLatch < q := hl ▸ State.asserted_nextEdge ha (State.csCursor_eq_ok.mp hc) hq
    rw [hq, if_neg Bool.false_ne_true] at h
    cases h
    exact setPhase (commit (refl s) hw (le_sub_one_of_lt hlq))

theorem qDeassert {s t : State} (h : s.qDeassert = .ok t) : s.EmitsSound t := by
  simp only [State.qDeassert, Res.bind_eq_ok] at h
  obtain ⟨c, -, d, -, h⟩ := h
  cases h
  exact setPhase (reportProgress (setCs (refl s)))

theorem qReassert {s t : State} (h : s.qReassert = .ok t) : s.EmitsSound t := by
  simp only [State.qReassert, Res.bind_eq_ok] at h
  obtain ⟨c, -, d, -, u, hu, h⟩ := h
  cases h
  exact setPhase (forgetWidth (beginAssertion (reportProgress (syncClock hu))))

theorem dHead (s : State) : s.EmitsSound s.dHead := by
  unfold State.dHead
  split
  · exact setPhase (setEstLatch (refl s))
  · exact setPhase (refl s)

/-- An empty window is at least one sample wide, so the provisional frame ends no earlier than it starts
(44_dual_edge_decoder R174). -/
theorem dProbe {s t : State} (hk : s.pendingOk = true) (hv : s.pendValid = true) (he : 0 < s.estLatch.toNat)
    (h : s.dProbe = .ok t) : s.EmitsSound t := by
  obtain ⟨crosses, hx, h⟩ := Res.bind_eq_ok.mp h
  obtain ⟨hfit, -, -⟩ := Cursor.wouldCross_eq_ok.mp hx
  split at h
  · exact toRealEdge hk h
  · obtain ⟨c, hc, h⟩ := Res.bind_eq_ok.mp h
    obtain ⟨-, -, rfl⟩ := Cursor.advanceToAbsolute_eq_ok.mp hc
    cases h
    obtain ⟨hs, hw⟩ := State.pendingOk_pending hk hv
    have hp : s.pendStart < s.clk.pos + s.estLatch := by rw [hs]; bv_omega
    exact setPhase (setPendValid (commit (setClk (refl s)) hw (le_sub_one_of_lt hp)))

end State.EmitsSound

/-! ## The block's turn -/

/-- Past `IDLE` the result of the block's turn, when it completes, appends sound records. -/
theorem State.Inv.turnRes_emitsSound {s t : State} (hi : s.Inv) (hp : s.phase ≠ .idle) (h : s.turnRes = .ok t) :
    s.EmitsSound t := by
  unfold State.turnRes at h
  cases hph : s.phase <;> simp only [hph] at h
  case idle => exact absurd hph hp
  case eSeek => exact .eSeek h
  case eEdge => exact .eEdge hi.masks h
  case eProbe =>
    obtain ⟨hl, hw⟩ := hi.eProbe_latches hph
    exact .eProbe hl hw h
  case qInit => exact .qInit h
  case qAlign => exact .qAlign h
  case qEdge => exact .qEdge h
  case qRace =>
    obtain ⟨ha, hl, hw⟩ := hi.qRace_latches hph
    exact .qRace ha hl hw h
  case qDeassert => exact .qDeassert h
  case qReassert => exact .qReassert h
  case dHead => cases h; exact .dHead s
  case dAdvance => exact .toRealEdge (hi.dAdvance_pending hph) h
  case dProbe =>
    obtain ⟨hk, hv, he⟩ := hi.dProbe_pending hph
    exact .dProbe hk hv (Nat.zero_lt_of_lt he) h
  case done | cancelled | stopped => cases h; exact .refl s

/-- Past `IDLE` so does the block's turn: a hold, a normal end and a stop append nothing. -/
theorem State.Inv.blockStep_emitsSound {s t : State} (hi : s.Inv) (hp : s.phase ≠ .idle)
    (h : blockStep s = .next t) : s.EmitsSound t := by
  rw [blockStep_eq_settle] at h
  rcases Res.settle_eq_next h with hr | ⟨-, rfl⟩ | ⟨-, rfl⟩ | ⟨c, -, rfl⟩
  · exact hi.turnRes_emitsSound hp hr
  · exact .refl t
  · exact .setPhase (.refl s)
  · exact ⟨rfl, rfl, [], by simp [State.stop_eq], by simp⟩

/-- The start step appends nothing (70_reset_and_hazards R221). -/
theorem State.start_out (s : State) (w : BitVec 32) : (s.start w).out = s.out := by
  rcases s.start_cases w with ⟨c, -, h⟩ | ⟨-, h⟩ <;> rw [h] <;> rfl

theorem blockStep_idle {s : State} (h : s.phase = .idle) : blockStep s = .next (s.start s.inputs.cfg) := by
  rw [blockStep_eq_settle, State.turnRes, h]
  rfl

/-- Settles O37: the start step appends nothing, and every other turn appends sound records under the
configuration it keeps. -/
theorem appendedRecordsAreSound : Obligations.AppendedRecordsAreSound := by
  intro s t hi h
  by_cases hp : s.phase = .idle
  · rw [blockStep_idle hp] at h
    cases h
    exact ⟨[], by rw [State.start_out, List.append_nil], by simp⟩
  · obtain ⟨hc, hd, hout⟩ := hi.blockStep_emitsSound hp h
    rw [hc, hd]
    exact hout

end Sys2Proof.Machine
end

section
/-! SUPPORT. Chip-select is active low: how a trace's level changes at an edge and nowhere else, what the
invariant says of it in the chip-select phases, and what their turns leave (43_cs_decoder R151). -/

namespace Sys2Proof.Machine

/-! ## Levels between and at edges -/

/-- Of positions that stand in order around `q`, those at or before it are counted (20_memory R51). -/
theorem countP_le_append {q : Pos} {as bs : List Pos} (has : ∀ f ∈ as, f ≤ q) (hbs : ∀ f ∈ bs, q < f) :
    (as ++ bs).countP (fun f => f ≤ q) = as.length := by
  have ha : as.countP (fun f => f ≤ q) = as.length := List.countP_eq_length.mpr (by simpa using has)
  have hb : bs.countP (fun f => f ≤ q) = 0 := List.countP_eq_zero.mpr (by simpa using hbs)
  rw [List.countP_append, ha, hb, Nat.add_zero]

/-- In canonical form the next edge is the one more transition passed on the way to it (20_memory R50, R55). -/
theorem Trace.countP_nextEdge {t : Trace} {p e : Pos} (hw : t.wf = true) (h : t.nextEdge p = some e) :
    t.edges.countP (fun f => f ≤ e) = t.edges.countP (fun f => f ≤ p) + 1 := by
  have hpe : p < e := (Trace.nextEdge_some h).2
  obtain ⟨-, as, bs, hs, has⟩ := List.find?_eq_some_iff_append.mp h
  have hasp : ∀ f ∈ as, f ≤ p := fun f hf => by simpa using has f hf
  have hrise := ((t.wf_iff).mp hw).2
  rw [hs] at hrise
  have hbs : ∀ f ∈ bs, e < f := (List.pairwise_cons.mp (List.pairwise_append.mp hrise).2.1).1
  have upto_p : (as ++ e :: bs).countP (fun f => f ≤ p) = as.length :=
    countP_le_append hasp (List.forall_mem_cons.mpr ⟨hpe, fun f hf => BitVec.lt_trans hpe (hbs f hf)⟩)
  have upto_e : ((as ++ [e]) ++ bs).countP (fun f => f ≤ e) = (as ++ [e]).length :=
    countP_le_append (List.forall_mem_append.mpr
      ⟨fun f hf => BitVec.le_trans (hasp f hf) (BitVec.le_of_lt hpe), by simp⟩) hbs
  rw [hs, upto_p, List.append_cons, upto_e, List.length_append, List.length_singleton]

/-- At its next edge a channel has the other level (20_memory R51). -/
theorem Trace.level_nextEdge {t : Trace} {p e : Pos} (hw : t.wf = true) (h : t.nextEdge p = some e) :
    t.level e = !t.level p := by
  unfold Trace.level
  rw [Trace.countP_nextEdge hw h]
  rcases Nat.mod_two_eq_zero_or_one (t.edges.countP fun f => f ≤ p) with hm | hm <;>
    simp [Nat.add_mod, hm]

/-- Up to its next edge a channel keeps its level (20_memory R51). -/
theorem Trace.level_before_nextEdge {t : Trace} {p q : Pos} (hw : t.wf = true) (hpq : p ≤ q)
    (h : posLt (some q) (t.nextEdge p) = true) : t.level q = t.level p := by
  have hno : ∀ f ∈ t.edges, p < f → q < f := by
    intro f hf hpf
    cases he : t.nextEdge p with
    | none => exact absurd hpf (BitVec.not_lt.mpr (Trace.nextEdge_none.mp he f hf))
    | some e =>
      have hqe : q < e := by simpa [he, posLt] using h
      have hef : e ≤ f := Trace.nextEdge_le hw he hf hpf
      bv_omega
  have hcount : t.edges.countP (fun f => f ≤ q) = t.edges.countP (fun f => f ≤ p) := by
    refine List.countP_congr fun f hf => ?_
    simp only [decide_eq_true_eq]
    exact ⟨fun hfq => BitVec.not_lt.mp fun hpf => BitVec.not_lt.mpr hfq (hno f hf hpf),
      fun hfp => BitVec.le_trans hfp hpq⟩
  rw [Trace.level, Trace.level, hcount]

/-! ## What the invariant says of chip-select -/

theorem State.Inv.cs_wf {s : State} {c : Cursor} (hi : s.Inv) (hc : s.cs = some c) : c.trace.wf = true := by
  have h := hi.traces
  simp only [Memory.wf, Bool.and_eq_true, List.all_eq_true] at h
  exact h.2 c.trace (by simp [State.traces, hc])

/-- While chip-select is asserted, it reads 0 at its cursor and at the clock cursor (43_cs_decoder R153). -/
theorem State.Inv.asserted_levels {s : State} (hi : s.Inv) (h : s.asserted = true) :
    ∃ c, s.cs = some c ∧ c.trace.level c.pos = false ∧ c.trace.level s.clk.pos = false := by
  cases hc : s.cs with
  | none => simp [State.asserted, hc] at h
  | some c =>
    simp only [State.asserted, hc, Bool.and_eq_true, beq_iff_eq, decide_eq_true_eq] at h
    obtain ⟨⟨hlow, hle⟩, hlt⟩ := h
    exact ⟨c, rfl, hlow, (Trace.level_before_nextEdge (hi.cs_wf hc) hle hlt).trans hlow⟩

theorem State.Inv.qEdge_asserted {s : State} (hi : s.Inv) (hp : s.phase = .qEdge) : s.asserted = true := by
  have h := hi.phase
  simp only [State.phaseOk, hp, Bool.and_eq_true] at h
  exact h.1.1

theorem State.Inv.qDeassert_asserted {s : State} (hi : s.Inv) (hp : s.phase = .qDeassert) : s.asserted = true := by
  have h := hi.phase
  simp only [State.phaseOk, hp, Bool.and_eq_true] at h
  exact h.1

/-- Where `Q_DEASSERT` is entered the deassertion edge is buffered (43_cs_decoder R156). -/
theorem State.Inv.qDeassert_moreBuffered {s : State} {c : Cursor} (hi : s.Inv) (hp : s.phase = .qDeassert)
    (hc : s.cs = some c) : c.moreBuffered s.producer = true := by
  have h := hi.phase
  simp only [State.phaseOk, hp, hc, Bool.and_eq_true] at h
  exact h.2.1

/-- `Q_REASSERT` is entered with chip-select deasserted (43_cs_decoder R157). -/
theorem State.Inv.qReassert_level {s : State} {c : Cursor} (hi : s.Inv) (hp : s.phase = .qReassert)
    (hc : s.cs = some c) : c.trace.level c.pos = true := by
  have h := hi.phase
  simp only [State.phaseOk, hp, hc, Bool.and_eq_true] at h
  exact h.1.1

/-! ## Where the chip-select phases leave the chip-select cursor -/

/-- An advance lands on the next edge, and the level there is the other one (20_memory R51, R57). -/
theorem Cursor.advanceToNextEdge_level {pr : Producer} {c d : Cursor} (hw : c.trace.wf = true)
    (h : c.advanceToNextEdge pr = .ok d) :
    c.trace.nextEdge c.pos = some d.pos ∧ d.trace.level d.pos = !c.trace.level c.pos := by
  obtain ⟨e, he, -, rfl⟩ := Cursor.advanceToNextEdge_eq_ok.mp h
  exact ⟨he, Trace.level_nextEdge hw he⟩

theorem State.syncClock_cs {s t : State} {c : Cursor} (h : s.syncClock c = .ok t) : t.cs = some c := by
  obtain ⟨d, -, he⟩ := Res.bind_eq_ok.mp h
  cases he
  rfl

/-- `Q_INIT` moves chip-select on exactly when it starts deasserted (43_cs_decoder R150). -/
theorem State.qInit_cs {s t : State} (h : s.qInit = .ok t) :
    ∃ c d, s.cs = some c ∧ t.cs = some d ∧
      if c.trace.level c.pos then c.advanceToNextEdge s.producer = .ok d else d = c := by
  simp only [State.qInit, Res.bind_eq_ok] at h
  obtain ⟨c, hc, l, hl, u, hu, he⟩ := h
  obtain ⟨-, rfl⟩ := Cursor.currentLevel_eq_ok.mp hl
  have hcs := State.csCursor_eq_ok.mp hc
  cases he
  cases hlevel : c.trace.level c.pos with
  | true =>
    rw [hlevel, if_pos rfl] at hu
    obtain ⟨d, hd, hu⟩ := Res.bind_eq_ok.mp hu
    exact ⟨c, d, hcs, State.syncClock_cs (t := u) hu, by simpa [hlevel] using hd⟩
  | false =>
    rw [hlevel, if_neg Bool.false_ne_true] at hu
    cases hu
    exact ⟨c, c, hcs, hcs, by simp [hlevel]⟩

/-- `Q_REASSERT` moves chip-select to its next edge (43_cs_decoder R157). -/
theorem State.qReassert_cs {s t : State} (h : s.qReassert = .ok t) :
    ∃ c d, s.cs = some c ∧ t.cs = some d ∧ c.advanceToNextEdge s.producer = .ok d := by
  simp only [State.qReassert, Res.bind_eq_ok] at h
  obtain ⟨c, hc, d, hd, u, hu, he⟩ := h
  cases he
  exact ⟨c, d, State.csCursor_eq_ok.mp hc, State.syncClock_cs (t := u) hu, hd⟩

/-- `Q_DEASSERT` completes when the deassertion edge is buffered, and moves chip-select onto it
(43_cs_decoder R156). -/
theorem State.qDeassert_cs {s : State} {c : Cursor} (hc : s.cs = some c) (hb : c.moreBuffered s.producer = true) :
    ∃ u d, s.qDeassert = .ok u ∧ u.cs = some d ∧ c.advanceToNextEdge s.producer = .ok d := by
  obtain ⟨e, -, -, hadv⟩ := Cursor.advance_of_moreBuffered hb
  have hu : s.qDeassert =
      .ok (((s.setCs (some { c with pos := e })).reportProgress e).setPhase .qReassert) := by
    rw [State.qDeassert, State.csCursor_eq_ok.mpr hc, Res.ok_bind, hadv, Res.ok_bind]
  exact ⟨_, _, hu, rfl, hadv⟩

/-- A turn that leaves its phase for one a run goes on from has completed: it neither held, ended nor stopped
the run (60_exceptions R205 to R207). -/
theorem turnRes_of_phase_ne {s t : State} (h : blockStep s = .next t) (hne : t.phase ≠ s.phase)
    (hf : t.phase.final = false) : s.turnRes = .ok t := by
  rw [blockStep_eq_settle] at h
  rcases Res.settle_eq_next h with hr | ⟨-, rfl⟩ | ⟨-, rfl⟩ | ⟨c, -, rfl⟩
  · exact hr
  · exact absurd rfl hne
  · exact absurd hf (by simp [State.finish_eq, Phase.final])
  · exact absurd hf (by simp [State.stop_eq, Phase.final])

/-! ## The claim, phase by phase -/

/-- A turn of `Q_DEASSERT` ends the assertion on a rise (43_cs_decoder R151, R156). -/
theorem State.Inv.qDeassert_rises {s t : State} (hi : s.Inv) (h : blockStep s = .next t)
    (hp : s.phase = .qDeassert) :
    ∃ c d, s.cs = some c ∧ t.cs = some d ∧ c.trace.level c.pos = false ∧
      d.trace.level d.pos = true ∧ c.trace.nextEdge c.pos = some d.pos := by
  obtain ⟨c, hc, hlow, -⟩ := hi.asserted_levels (hi.qDeassert_asserted hp)
  obtain ⟨u, d, hu, hd, hadv⟩ := State.qDeassert_cs hc (hi.qDeassert_moreBuffered hp hc)
  obtain ⟨hedge, hlevel⟩ := Cursor.advanceToNextEdge_level (hi.cs_wf hc) hadv
  rw [blockStep_eq_settle, State.turnRes, hp] at h
  simp only [hu, Res.settle_ok] at h
  cases h
  exact ⟨c, d, hc, hd, hlow, by rw [hlevel, hlow]; rfl, hedge⟩

/-- A turn of `Q_INIT` or `Q_REASSERT` into `Q_ALIGN` begins the assertion at level 0, on a fall when
chip-select was at 1 (43_cs_decoder R150, R151, R157). -/
theorem State.Inv.assertion_begins_low {s t : State} (hi : s.Inv) (h : blockStep s = .next t)
    (hp : s.phase ∈ [.qInit, .qReassert]) (ht : t.phase = .qAlign) :
    ∃ c d, s.cs = some c ∧ t.cs = some d ∧ d.trace.level d.pos = false ∧
      (c.trace.level c.pos = true → c.trace.nextEdge c.pos = some d.pos) := by
  have falls : ∀ {c d : Cursor}, s.cs = some c → c.trace.level c.pos = true →
      c.advanceToNextEdge s.producer = .ok d →
      d.trace.level d.pos = false ∧ c.trace.nextEdge c.pos = some d.pos := by
    intro c d hc hhigh hadv
    obtain ⟨hedge, hlevel⟩ := Cursor.advanceToNextEdge_level (hi.cs_wf hc) hadv
    exact ⟨by rw [hlevel, hhigh]; rfl, hedge⟩
  simp only [List.mem_cons, List.not_mem_nil, or_false] at hp
  have hr : s.turnRes = .ok t :=
    turnRes_of_phase_ne h (by rw [ht]; rcases hp with hp | hp <;> simp [hp]) (by rw [ht]; rfl)
  unfold State.turnRes at hr
  rcases hp with hp | hp <;> simp only [hp] at hr
  · obtain ⟨c, d, hc, hd, hmove⟩ := State.qInit_cs hr
    split at hmove
    · next hhigh =>
      obtain ⟨hlow, hedge⟩ := falls hc hhigh hmove
      exact ⟨c, d, hc, hd, hlow, fun _ => hedge⟩
    · next hlow =>
      subst hmove
      exact ⟨d, d, hc, hd, by simpa using hlow, fun hhigh => absurd hhigh hlow⟩
  · obtain ⟨c, d, hc, hd, hadv⟩ := State.qReassert_cs hr
    obtain ⟨hlow, hedge⟩ := falls hc (hi.qReassert_level hp hc) hadv
    exact ⟨c, d, hc, hd, hlow, fun _ => hedge⟩

/-- Settles O54: chip-select keeps level 0 from its cursor to the clock cursor where a word is sampled, and
an advance from one level lands on the other. -/
theorem chipSelectIsActiveLow : Obligations.ChipSelectIsActiveLow := by
  intro s t hi h
  refine ⟨fun hp => ?_, hi.qDeassert_rises h, hi.assertion_begins_low h⟩
  obtain ⟨c, hc, -, hlow⟩ := hi.asserted_levels (hi.qEdge_asserted hp)
  exact ⟨c, hc, hlow⟩

end Sys2Proof.Machine
end

section
/-! SUPPORT. Decoding and encoding undo each other (30_encoding sections 1 and 2). -/

namespace Sys2Proof

/-- A configuration word is its reserved field before its low field (30_encoding R80). -/
theorem cfg_fields_append (w : BitVec 32) : w.extractLsb' 3 29 ++ w.extractLsb' 0 3 = w := by
  rw [BitVec.extractLsb'_append_extractLsb'_eq_extractLsb' (by omega)]
  simp

/-- A word with a reserved bit set decodes to the row that keeps both fields (30_encoding R82). -/
theorem decodeCfg_reserved {resv : BitVec 29} (low : BitVec 3) (h : resv ≠ 0#29) :
    decodeCfg (resv ++ low) = .cfgReservedBits resv low := by
  obtain ⟨hresv, hlow⟩ := Laws.OneCode.append_fields resv low
  simp only [decodeCfg, hresv, hlow, h, if_false]

theorem encode_decodeCfg_reserved {w : BitVec 32} (h : w.extractLsb' 3 29 ≠ 0#29) :
    encode (decodeCfg w) = some (.cfg w) ∧ (decodeCfg w).wf = true := by
  rw [← cfg_fields_append w, decodeCfg_reserved _ h]
  exact ⟨rfl, by simpa [Instr.wf] using h⟩

/-- With no reserved bit set the low field alone is one of the eight rows (30_encoding R81). -/
theorem encode_decodeCfg_low (low : BitVec 3) :
    encode (decodeCfg (0#29 ++ low)) = some (.cfg (0#29 ++ low)) ∧ (decodeCfg (0#29 ++ low)).wf = true := by
  revert low; decide

theorem encode_decodeCfg (w : BitVec 32) :
    encode (decodeCfg w) = some (.cfg w) ∧ (decodeCfg w).wf = true := by
  by_cases h : w.extractLsb' 3 29 = 0#29
  · have hw := cfg_fields_append w
    rw [h] at hw
    rw [← hw]
    exact encode_decodeCfg_low _
  · exact encode_decodeCfg_reserved h

theorem encode_decodePhase (w : BitVec 4) :
    encode (decodePhase w) = some (.phase w) ∧ (decodePhase w).wf = true := by
  revert w; decide

/-- Decoding the code of a well-formed operation answers the operation. -/
theorem decode_encode {i : Instr} {c : Code} (hi : i.wf = true) (hc : encode i = some c) : decode c = i := by
  cases i with
  | cfgReservedBits resv low =>
    cases hc
    exact decodeCfg_reserved low (by simpa [Instr.wf] using hi)
  | opSampleWord _ | opEstimateWidth | opCommit _ _ _ | opReportProgress _ | opMarkArrow _ _ | opFinishReal _ _
  | opCloseAndOpen _ | opSeekActive => cases hc
  | _ => cases hc; rfl

/-- Settles O1: the eight rows with no reserved bit and the sixteen phases are each their own code, and the
reserved-bits row keeps both fields of its word. -/
theorem decodeEncodeAgree : Obligations.DecodeEncodeAgree := by
  refine ⟨fun i c => decode_encode, fun c => ?_⟩
  cases c with
  | cfg w => exact encode_decodeCfg w
  | phase w => exact encode_decodePhase w

/-- Settles O2: each of the eight words is one closed computation of the decoder. -/
theorem specWordsDecode : Obligations.SpecWordsDecode := by
  unfold Obligations.SpecWordsDecode
  decide

end Sys2Proof
end

section
/-! SUPPORT. The start step and its rows (30_encoding R81 and R82, 60_exceptions R200 and R201,
70_reset_and_hazards R220 and R221), and which operation a step runs. -/

namespace Sys2Proof.Machine

/-! ## The rows of the variant table -/

/-- A row of the variant table is the start step on its word (log 12). -/
theorem exec_of_cfg_code {i : Instr} {w : BitVec 32} (h : encode i = some (.cfg w)) (s : State) :
    exec i s = .next (s.start w) := by
  cases i <;> cases h <;> rfl

theorem exec_decodeCfg (w : BitVec 32) (s : State) : exec (decodeCfg w) s = .next (s.start w) :=
  exec_of_cfg_code (encode_decodeCfg w).1 s

/-- Settles O8: the row a word decodes to has that word for its code, so it is the start step on it. -/
theorem idleStartIsItsRow : Obligations.IdleStartIsItsRow := fun s => (exec_decodeCfg s.inputs.cfg s).symm

theorem Phase.decode_code_idle : decode (.phase Phase.idle.code) = .phIdleStart := rfl

/-- Settles O3: the turn taken off the list is the block's, and `IDLE` selects the start step. -/
theorem stepRunsSelectedOperation : Obligations.StepRunsSelectedOperation := by
  intro s t ht
  have hphase : t.phase = s.phase ∧ t.inputs = s.inputs := by
    rcases ht with ⟨-, rfl⟩ | ⟨rest, -, rfl⟩ <;> exact ⟨rfl, rfl⟩
  have hstep : step s = exec (decode (.phase s.phase.code)) t := by
    rcases ht with ⟨hs, rfl⟩ | ⟨rest, hs, rfl⟩ <;> rw [step, hs] <;> rfl
  refine ⟨hstep, fun hidle => ?_⟩
  rw [hstep, hidle, Phase.decode_code_idle, idleStartIsItsRow t, hphase.2]

/-! ## How the start step ends -/

theorem State.start_of_check_some {s : State} {w : BitVec 32} {c : Cause} (h : startCheck s.config w s.inputs = some c) :
    s.start w = { s.latch w with phase := .stopped, cause := c.code } := by
  rw [State.start, h]
  rfl

theorem State.start_of_check_none {s : State} {w : BitVec 32} (h : startCheck s.config w s.inputs = none) :
    s.start w = { s.latch w with
      phase := cfgFirstPhase w, pendValid := if cfgFirstPhase w = .dHead then false else s.pendValid } := by
  rcases s.start_cases w with ⟨c, hc, -⟩ | ⟨-, hs⟩
  · rw [h] at hc
    cases hc
  · exact hs

/-! ## The fields of a configuration word as numbers -/

theorem cfgReserved_eq_zero {w : BitVec 32} : cfgReserved w = 0#29 ↔ w.toNat / 8 = 0 := by
  rw [← BitVec.toNat_inj, cfgReserved, BitVec.extractLsb'_toNat, BitVec.toNat_ofNat, Nat.shiftRight_eq_div_pow]
  omega

theorem cfgMode_eq {w : BitVec 32} {m : Nat} (hm : m < 4) : cfgMode w = BitVec.ofNat 2 m ↔ w.toNat % 4 = m := by
  rw [← BitVec.toNat_inj, cfgMode, BitVec.extractLsb'_toNat, BitVec.toNat_ofNat, Nat.shiftRight_zero]
  omega

theorem cfgCsEn_iff {w : BitVec 32} (h : w.toNat / 8 = 0) : cfgCsEn w = true ↔ w.toNat / 4 = 1 := by
  rw [cfgCsEn, BitVec.getLsbD, Nat.testBit_eq_decide_div_mod_eq, decide_eq_true_eq]
  omega

/-- The six checks on the word's number, in the order of their codes (60_exceptions R200, R201). -/
theorem startCheck_eq_toNat (c : Config) (w : BitVec 32) (i : Inputs) :
    startCheck c w i =
      if w.toNat / 8 ≠ 0 then some .cfgReservedBits
      else if w.toNat % 4 = 3 then some .cfgReservedMode
      else if w.toNat / 4 = 1 ∧ w.toNat % 4 = 2 then some .cfgCsDual
      else if i.data.reduceOption.length = 0 then some .cfgNoData
      else if c.maxData < i.data.reduceOption.length then some .cfgTooManyData
      else if ¬(w.toNat / 4 = 1 ↔ i.cs.isSome = true) then some .cfgCsBinding
      else none := by
  have hmode : ∀ m < 4, cfgMode w = BitVec.ofNat 2 m ↔ w.toNat % 4 = m := fun m => cfgMode_eq
  unfold startCheck Inputs.lines
  by_cases h : w.toNat / 8 = 0
  · have hcs : cfgCsEn w ≠ i.cs.isSome ↔ ¬(w.toNat / 4 = 1 ↔ i.cs.isSome = true) := by
      rw [ne_eq, Bool.eq_iff_iff, cfgCsEn_iff h]
    simp only [hcs, ne_eq, cfgReserved_eq_zero, h, not_true_eq_false, if_false, hmode 3 (by decide), hmode 2 (by decide),
      cfgCsEn_iff h]
  · simp only [ne_eq, cfgReserved_eq_zero, h, not_false_eq_true, if_true]

/-- The first phase of an accepted word (30_encoding R81). -/
theorem cfgFirstPhase_eq_toNat {w : BitVec 32} (h : w.toNat / 8 = 0) :
    cfgFirstPhase w = if w.toNat = 2 then .dHead else if w.toNat / 4 = 1 then .qInit else .eSeek := by
  have hmode : cfgMode w = 2#2 ↔ w.toNat % 4 = 2 := cfgMode_eq (by decide)
  simp only [cfgFirstPhase, cfgCsEn_iff h, hmode]
  by_cases h4 : w.toNat / 4 = 1
  · rw [if_pos h4, if_neg (by omega), if_pos h4]
  · have h2 : w.toNat % 4 = 2 ↔ w.toNat = 2 := by omega
    simp only [h4, if_false, h2]

/-! ## The statements about the start step -/

/-- Settles O7: the checks and the first phase, read off the word's number. -/
theorem startChecksInCodeOrder : Obligations.StartChecksInCodeOrder := by
  intro s
  have hexec : exec .phIdleStart s = .next (s.start s.inputs.cfg) := rfl
  have hstop : ∀ {c : Cause}, startCheck s.config s.inputs.cfg s.inputs = some c →
      exec .phIdleStart s = .next { s.latch s.inputs.cfg with cause := c.code, phase := .stopped } := fun h => by
    rw [hexec, State.start_of_check_some h]
  have hcheck := startCheck_eq_toNat s.config s.inputs.cfg s.inputs
  dsimp only
  by_cases hresv : s.inputs.cfg.toNat / 8 ≠ 0
  · rw [if_pos hresv] at hcheck ⊢
    exact hstop hcheck
  rw [if_neg hresv] at hcheck ⊢
  by_cases hmode : s.inputs.cfg.toNat % 4 = 3
  · rw [if_pos hmode] at hcheck ⊢
    exact hstop hcheck
  rw [if_neg hmode] at hcheck ⊢
  by_cases hdual : s.inputs.cfg.toNat / 4 = 1 ∧ s.inputs.cfg.toNat % 4 = 2
  · rw [if_pos hdual] at hcheck ⊢
    exact hstop hcheck
  rw [if_neg hdual] at hcheck ⊢
  by_cases hnone : s.inputs.data.reduceOption.length = 0
  · rw [if_pos hnone] at hcheck ⊢
    exact hstop hcheck
  rw [if_neg hnone] at hcheck ⊢
  by_cases hmany : s.config.maxData < s.inputs.data.reduceOption.length
  · rw [if_pos hmany] at hcheck ⊢
    exact hstop hcheck
  rw [if_neg hmany] at hcheck ⊢
  by_cases hcs : ¬(s.inputs.cfg.toNat / 4 = 1 ↔ s.inputs.cs.isSome = true)
  · rw [if_pos hcs] at hcheck ⊢
    exact hstop hcheck
  rw [if_neg hcs] at hcheck ⊢
  have hphase := cfgFirstPhase_eq_toNat (not_not.mp hresv)
  rw [hexec, State.start_of_check_none hcheck, hphase]
  split_ifs <;> simp_all

/-- The channel mapping, entry `i + k` with mask `1 << (i + k)` (10_state R26). -/
theorem mapLines_eq_mapIdx (i : Nat) (ts : List Trace) :
    mapLines i ts = ts.mapIdx fun k t => { cursor := { trace := t, pos := 0#64 }, mask := 1#16 <<< (i + k) } := by
  induction ts generalizing i with
  | nil => rfl
  | cons t ts ih =>
    rw [mapLines, ih, List.mapIdx_cons]
    simp [Trace.cursor, Nat.add_assoc, Nat.add_comm 1]

/-- Everything the latch writes (10_state R22, R26, R27). -/
theorem State.latch_eq (s : State) (w : BitVec 32) :
    s.latch w = { s with
      cfg := w
      clk := { trace := s.inputs.clk, pos := 0#64 }
      cs := s.inputs.cs.map (fun t => { trace := t, pos := 0#64 })
      data := s.inputs.data.reduceOption.mapIdx
        (fun k t => { cursor := { trace := t, pos := 0#64 }, mask := 1#16 <<< k }) } := by
  have hlines := mapLines_eq_mapIdx 0 s.inputs.lines
  simp only [Nat.zero_add] at hlines
  unfold State.latch
  rw [hlines]
  rfl

/-- A word of one of the five accepted rows passes the checks under its binding conditions (30_encoding R81). -/
theorem startCheck_accepted {c : Config} {i : Inputs} {w : BitVec 32} (hw : w.toNat / 8 = 0) (hm : w.toNat % 4 ≠ 3)
    (hd : ¬(w.toNat / 4 = 1 ∧ w.toNat % 4 = 2)) (h1 : 1 ≤ i.data.reduceOption.length)
    (h2 : i.data.reduceOption.length ≤ c.maxData)
    (hcs : w.toNat / 4 = 1 ↔ i.cs.isSome = true) : startCheck c w i = none := by
  rw [startCheck_eq_toNat, if_neg (by omega), if_neg hm, if_neg hd, if_neg (by omega), if_neg (by omega),
    if_neg (not_not.mpr hcs)]

/-- Settles O5: each row's word passes the checks, and its number names its first phase. -/
theorem acceptedConfigurationStarts : Obligations.AcceptedConfigurationStarts := by
  intro s i w p hrow h1 h2 hcs
  have starts : ∀ {w : BitVec 32}, encode i = some (.cfg w) → w.toNat / 8 = 0 → w.toNat % 4 ≠ 3 →
      ¬(w.toNat / 4 = 1 ∧ w.toNat % 4 = 2) → (w.toNat / 4 = 1 ↔ s.inputs.cs.isSome = true) → cfgFirstPhase w = p →
      exec i s = .next { s.latch w with phase := p, pendValid := if p = .dHead then false else s.pendValid } := by
    intro w hi hw hm hd hsome hp
    rw [exec_of_cfg_code hi, State.start_of_check_none (startCheck_accepted hw hm hd h1 h2 hsome), hp]
  simp only [hcs, decide_eq_true_eq, State.latch_eq] at starts
  simp only [List.mem_cons, Prod.mk.injEq, List.not_mem_nil, or_false] at hrow
  rcases hrow with ⟨rfl, rfl, rfl⟩ | ⟨rfl, rfl, rfl⟩ | ⟨rfl, rfl, rfl⟩ | ⟨rfl, rfl, rfl⟩ | ⟨rfl, rfl, rfl⟩ <;>
    exact starts rfl (by decide) (by decide) (by decide) (by decide) (by decide)

/-- A row whose word fails a check stops with that check's code, the word and bindings latched (log 10). -/
theorem exec_cfg_stops {i : Instr} {w : BitVec 32} {c : Cause} {s : State} (hi : encode i = some (.cfg w))
    (hc : startCheck s.config w s.inputs = some c) :
    ∃ w, encode i = some (.cfg w) ∧ exec i s = .next { s.latch w with cause := c.code, phase := .stopped } :=
  ⟨w, hi, by rw [exec_of_cfg_code hi, State.start_of_check_some hc]⟩

/-- Settles O6: the first check that a reserved word fails is decided by the word alone. -/
theorem reservedConfigurationStops : Obligations.ReservedConfigurationStops := by
  intro s i c h
  simp only [List.mem_cons, Prod.mk.injEq, List.not_mem_nil, or_false] at h
  rcases h with (⟨rfl, rfl⟩ | ⟨rfl, rfl⟩ | ⟨rfl, rfl⟩) | ⟨resv, low, rfl, hwf, rfl⟩
  · exact exec_cfg_stops (c := .cfgReservedMode) rfl (by rw [startCheck_eq_toNat]; rfl)
  · exact exec_cfg_stops (c := .cfgCsDual) rfl (by rw [startCheck_eq_toNat]; rfl)
  · exact exec_cfg_stops (c := .cfgReservedMode) rfl (by rw [startCheck_eq_toNat]; rfl)
  · have hresv : cfgReserved (resv ++ low) ≠ 0#29 := by
      rw [cfgReserved, (Laws.OneCode.append_fields resv low).1]
      simpa [Instr.wf] using hwf
    exact exec_cfg_stops (c := .cfgReservedBits) rfl (by rw [startCheck, if_pos hresv])

/-! ## Reset -/

/-- Settles O4: the values `State.reset` is written with. -/
theorem resetValues : Obligations.ResetValues := ⟨rfl, rfl, rfl, rfl, rfl, rfl, rfl, rfl, rfl⟩

/-- Settles O45: each clause of the invariant computes to true on the state at reset. -/
theorem resetMeetsInvariant : Obligations.ResetMeetsInvariant where
  config := by decide
  traces := reset_memory_wf
  capture := by decide
  masks := by decide
  accepted := by decide
  cause := by decide
  lines := by decide
  phase := by decide
  output := by decide
  seq := by decide

end Sys2Proof.Machine
end

section
/-! SUPPORT. The primitives and the shared operations in the cases the phases meet: when a cursor reads,
advances or waits, and what a sample, an estimate and a seek come to (20_memory, 40_word_sampler,
41_frame_emitter). -/

namespace Sys2Proof.Machine

/-! ## Every operation as one result -/

/-- What an operation comes to from `s`, before the step that runs it is settled (00_scope R12). -/
def State.opRes (s : State) (i : Instr) : Res State :=
  match i with
  | .cfgEdgeRise => .ok (s.start 0#32)
  | .cfgEdgeFall => .ok (s.start 1#32)
  | .cfgDualEdge => .ok (s.start 2#32)
  | .cfgReservedMode3 => .ok (s.start 3#32)
  | .cfgCsRise => .ok (s.start 4#32)
  | .cfgCsFall => .ok (s.start 5#32)
  | .cfgReservedCsDual => .ok (s.start 6#32)
  | .cfgReservedCsMode3 => .ok (s.start 7#32)
  | .cfgReservedBits resv low => .ok (s.start (resv ++ low))
  | .phIdleStart => .ok (s.start s.inputs.cfg)
  | .phESeek => s.eSeek
  | .phEEdge => s.eEdge
  | .phEProbe => s.eProbe
  | .phQInit => s.qInit
  | .phQAlign => s.qAlign
  | .phQEdge => s.qEdge
  | .phQRace => s.qRace
  | .phQDeassert => s.qDeassert
  | .phQReassert => s.qReassert
  | .phDHead => .ok s.dHead
  | .phDAdvance => s.toRealEdge
  | .phDProbe => s.dProbe
  | .phDone | .phCancelled | .phStopped => .ok s
  | .opSampleWord p => (s.sampleWord p).bind fun r => .ok (r.1.setRet (r.2.setWidth 64))
  | .opEstimateWidth => .ok (s.setRet s.estimateWidth)
  | .opCommit v p q => .ok (s.commit v p q)
  | .opReportProgress p => .ok (s.reportProgress p)
  | .opMarkArrow p l => .ok (s.markArrow p l)
  | .opFinishReal w p => s.finishReal w p
  | .opCloseAndOpen e => s.closeAndOpen e
  | .opSeekActive => s.seekActive

theorem exec_eq_settle (i : Instr) (s : State) : exec i s = (s.opRes i).settle s := by cases i <;> rfl

/-- An operation that completes answers its next state. -/
theorem exec_of_ok {i : Instr} {s t : State} (h : s.opRes i = .ok t) : exec i s = .next t := by
  rw [exec_eq_settle, h, Res.settle_ok]

/-- An operation that raises a fault stops the run. -/
theorem exec_of_raise {i : Instr} {s : State} {c : Cause} (h : s.opRes i = .raise c) :
    exec i s = .next { s with phase := .stopped, cause := c.code } := by
  rw [exec_eq_settle, h, Res.settle_raise, State.stop_eq]

/-! ## Waiting -/

/-- The end of a primitive that needs what is not buffered: it holds, or the run is done once the capture
has ended (20_memory R56, R57; 92_eei_decisions D5). -/
def Producer.wait {α : Type} (pr : Producer) : Res α := if pr.ended then .done else .hold

@[simp] theorem Producer.wait_bind {α β : Type} (pr : Producer) (k : α → Res β) : pr.wait.bind k = pr.wait := by
  unfold Producer.wait
  cases pr.ended <;> rfl

/-- An operation that waits changes nothing, but for the phase at the end of the capture (60_exceptions R206, R207). -/
theorem exec_of_wait {i : Instr} {s : State} (h : s.opRes i = s.producer.wait) :
    exec i s = .next (if s.producer.ended then { s with phase := .done } else s) := by
  rw [exec_eq_settle, h, Producer.wait]
  cases s.producer.ended <;> rfl

/-! ## Cursors -/

theorem Cursor.currentLevel_readable {pr : Producer} {c : Cursor} (h : pr.readable c.pos = true) :
    c.currentLevel pr = .ok (c.trace.level c.pos) :=
  Cursor.currentLevel_eq_ok.mpr ⟨h, rfl⟩

theorem Cursor.currentLevel_unreadable {pr : Producer} {c : Cursor} (h : pr.readable c.pos = false) :
    c.currentLevel pr = pr.wait := by
  unfold Producer.readable at h
  unfold Cursor.currentLevel Producer.wait
  cases hended : pr.ended with
  | true => rw [hended, if_pos rfl] at h; simp_all
  | false => rw [hended, if_neg Bool.false_ne_true] at h; simp_all

theorem Cursor.advance_buffered {pr : Producer} {c : Cursor} {e : Pos} (he : c.trace.nextEdge c.pos = some e)
    (hb : e < pr.buffered) : c.advanceToNextEdge pr = .ok { c with pos := e } :=
  Cursor.advanceToNextEdge_eq_ok.mpr ⟨e, he, hb, rfl⟩

/-- The same wait as `Cursor.advance_unbuffered` writes out. -/
theorem Cursor.advance_waits {pr : Producer} {c : Cursor} (h : pr.known (c.trace.nextEdge c.pos) = false) :
    c.advanceToNextEdge pr = pr.wait :=
  Cursor.advance_unbuffered h

theorem Producer.known_some {pr : Producer} {e : Pos} : pr.known (some e) = true ↔ e < pr.buffered := by
  simp [Producer.known]

/-- A buffered edge is what the look-ahead sees (20_memory R55). -/
theorem Producer.known_iff {pr : Producer} {x : Option Pos} :
    pr.known x = true ↔ ∃ e, x = some e ∧ e < pr.buffered := by
  cases x <;> simp [Producer.known]

theorem Cursor.advanceToAbsolute_behind {pr : Producer} {c : Cursor} {p : Pos} (h : p < c.pos) :
    c.advanceToAbsolute pr p = .raise .nonmonotonic := by
  rw [Cursor.advanceToAbsolute, if_pos h]

theorem Cursor.wouldCross_overflow {pr : Producer} {c : Cursor} {n : Pos} (h : 2 ^ 64 ≤ c.pos.toNat + n.toNat) :
    c.wouldCross pr n = .raise .posOverflow := by
  rw [Cursor.wouldCross, if_pos h]

/-- A window that is not buffered on a live capture holds (20_memory R60). -/
theorem Cursor.wouldCross_holds {pr : Producer} {c : Cursor} {n : Pos} (hf : c.pos.toNat + n.toNat < 2 ^ 64)
    (hl : pr.ended = false) (hb : pr.buffered.toNat ≤ c.pos.toNat + n.toNat) : c.wouldCross pr n = .hold := by
  have hlt : ¬ c.pos + n < pr.buffered := by bv_omega
  rw [Cursor.wouldCross, if_neg (Nat.not_le.mpr hf), if_neg (by simp [hl, hlt])]

/-- Positions in a window that fits, as numbers. -/
theorem window_toNat {p n : Pos} (hf : p.toNat + n.toNat < 2 ^ 64) : (p + n).toNat = p.toNat + n.toNat := by
  rw [BitVec.toNat_add, Nat.mod_eq_of_lt hf]

/-- A window that is there, in the capture or after its end, crosses exactly with an edge in it (20_memory R60). -/
theorem Cursor.wouldCross_settled {pr : Producer} {c : Cursor} {n : Pos} {b : Bool}
    (hf : c.pos.toNat + n.toNat < 2 ^ 64) (hb : pr.ended = true ∨ c.pos.toNat + n.toNat < pr.buffered.toNat)
    (hc : b = true ↔ ∃ e, c.trace.nextEdge c.pos = some e ∧ e.toNat ≤ c.pos.toNat + n.toNat) :
    c.wouldCross pr n = .ok b := by
  refine Cursor.wouldCross_eq_ok.mpr ⟨hf, ?_, ?_⟩
  · rw [BitVec.lt_def, window_toNat hf]
    exact hb.symm
  · rw [Bool.eq_iff_iff, hc]
    cases c.trace.nextEdge c.pos <;> simp [BitVec.le_def, window_toNat hf]

/-! ## Races -/

theorem Producer.race_of_clock {pr : Producer} {a c : Option Pos} {p : Pos} (ha : a = some p) (hb : p < pr.buffered)
    (hc : ∀ q, c = some q → p < q) : pr.race a c = .ok true := by
  have hlt : posLt a c = true := by
    cases c with
    | none => rw [ha]; rfl
    | some q => simpa [ha, posLt] using hc q rfl
  refine Producer.race_eq_ok.mpr ⟨?_, hlt.symm⟩
  rw [posMin, if_pos hlt, ha]
  exact Producer.known_some.mpr hb

theorem Producer.race_of_chipSelect {pr : Producer} {a c : Option Pos} {q : Pos} (hc : c = some q)
    (hb : q < pr.buffered) (ha : ∀ p, a = some p → q ≤ p) : pr.race a c = .ok false := by
  have hlt : posLt a c = false := by
    cases a with
    | none => rfl
    | some p => simpa [hc, posLt] using ha p rfl
  refine Producer.race_eq_ok.mpr ⟨?_, hlt.symm⟩
  rw [posMin, if_neg (by simp [hlt]), hc]
  exact Producer.known_some.mpr hb

theorem Producer.race_waits {pr : Producer} {a c : Option Pos} (ha : pr.known a = false) (hc : pr.known c = false) :
    pr.race a c = pr.wait := by
  have hm : pr.known (posMin a c) = false := by
    unfold posMin
    split
    · exact ha
    · exact hc
  rw [Producer.race, if_neg (by simp [hm]), Producer.wait]

/-! ## Active edges -/

/-- From the level that follows an active edge the next active edge is the second edge ahead, otherwise the
first (20_memory R62, 90_conflicts C3). -/
theorem Trace.nextActive_eq {t : Trace} (hw : t.wf = true) (a : Level) (p : Pos) :
    t.nextActive a p = if t.level p = a then (t.nextEdge p).bind t.nextEdge else t.nextEdge p := by
  cases he : t.nextEdge p with
  | none =>
    have hno : t.nextActive a p = none := by
      rw [Trace.nextActive, List.find?_eq_none]
      intro e hm
      simp [BitVec.not_lt.mpr (Trace.nextEdge_none.mp he e hm)]
    simp [hno]
  | some e =>
    have hpe := (Trace.nextEdge_some he).2
    have hlevel := Trace.level_nextEdge hw he
    obtain ⟨-, as, bs, hs, has⟩ := List.find?_eq_some_iff_append.mp he
    have hpass : ∀ f ∈ as, f ≤ p := fun f hf => by simpa using has f hf
    have skip : ∀ P : Pos → Bool, (∀ f ∈ as, P f = false) → t.edges.find? P = (e :: bs).find? P := fun P hP => by
      rw [hs, List.find?_append, List.find?_eq_none.mpr (by simpa using hP), Option.none_or]
    have hactive : t.nextActive a p = (e :: bs).find? fun f => p < f && t.level f == a :=
      skip _ fun f hf => by simp [BitVec.not_lt.mpr (hpass f hf)]
    by_cases hl : t.level p = a
    · have hnext : t.nextEdge e = (e :: bs).find? fun f => e < f :=
        skip _ fun f hf => by simpa using BitVec.le_trans (hpass f hf) (BitVec.le_of_lt hpe)
      have hne : ¬ t.level e = a := by rw [hlevel, hl]; simp
      rw [if_pos hl, Option.bind_some, hnext, hactive, List.find?_cons_of_neg (by simp [hne]),
        List.find?_cons_of_neg (by simp)]
      cases bs with
      | nil => rfl
      | cons f bs =>
        have hef : e < f := (List.pairwise_cons.mp (List.pairwise_append.mp (hs ▸ ((t.wf_iff).mp hw).2)).2.1).1 f
          List.mem_cons_self
        have hf : t.nextEdge e = some f := by rw [hnext]; simp [hef]
        have hlf : t.level f = a := by rw [Trace.level_nextEdge hw hf, hlevel, hl]; simp
        simp [hef, hlf, BitVec.lt_trans hpe hef]
    · have hla : t.level e = a := by
        rw [hlevel]
        revert hl
        cases t.level p <;> cases a <;> decide
      rw [if_neg hl, hactive, List.find?_cons_of_pos (by simp [hpe, hla])]

theorem State.clk_wf_of_memory_wf {s : State} (h : Memory.wf s = true) : s.clk.trace.wf = true := by
  simp only [Memory.wf, Bool.and_eq_true, List.all_eq_true] at h
  exact h.2 _ List.mem_cons_self

/-- The seek reaches the next active edge once it is buffered (20_memory R62). -/
theorem Cursor.seekActive_buffered {pr : Producer} {c : Cursor} {a : Level} {e : Pos} (hw : c.trace.wf = true)
    (he : c.trace.nextActive a c.pos = some e) (hb : e < pr.buffered) :
    c.seekActive pr a = .ok { c with pos := e } := by
  have hce : c.pos < e := (Trace.nextActive_some he).2.1
  rw [Trace.nextActive_eq hw] at he
  rw [Cursor.seekActive, Cursor.currentLevel_readable (Producer.readable_of_lt (BitVec.lt_trans hce hb)), Res.ok_bind]
  split
  · next hl =>
    rw [if_pos hl] at he
    obtain ⟨i, hi, hie⟩ := Option.bind_eq_some_iff.mp he
    have hlt : i < e := (Trace.nextEdge_some hie).2
    rw [Cursor.advance_buffered hi (BitVec.lt_trans hlt hb), Res.ok_bind]
    exact Cursor.advance_buffered (c := ⟨c.trace, i⟩) hie hb
  · next hl =>
    rw [if_neg hl] at he
    exact Cursor.advance_buffered he hb

/-- Until then it waits, at whichever of its primitives (20_memory R62). -/
theorem Cursor.seekActive_waits {pr : Producer} {c : Cursor} {a : Level} (hw : c.trace.wf = true)
    (hk : pr.known (c.trace.nextActive a c.pos) = false) : c.seekActive pr a = pr.wait := by
  unfold Cursor.seekActive
  by_cases hr : pr.readable c.pos = true
  · rw [Cursor.currentLevel_readable hr, Res.ok_bind]
    rw [Trace.nextActive_eq hw] at hk
    split
    · next hl =>
      rw [if_pos hl] at hk
      by_cases hi : pr.known (c.trace.nextEdge c.pos) = true
      · obtain ⟨i, hi, hib⟩ := Producer.known_iff.mp hi
        rw [hi, Option.bind_some] at hk
        rw [Cursor.advance_buffered hi hib, Res.ok_bind]
        exact Cursor.advance_waits (c := ⟨c.trace, i⟩) hk
      · rw [Cursor.advance_waits (Bool.not_eq_true _ ▸ hi), Producer.wait_bind]
    · next hl =>
      rw [if_neg hl] at hk
      exact Cursor.advance_waits hk
  · rw [Cursor.currentLevel_unreadable (Bool.not_eq_true _ ▸ hr), Producer.wait_bind]

theorem State.act_of_cfgAct {s : State} {a : Level} (h : cfgAct s.cfg = some a) : s.act = .ok a := by
  rw [State.act, h]

theorem State.act_eq_ok {s : State} {a : Level} : s.act = .ok a ↔ cfgAct s.cfg = some a := by
  unfold State.act
  cases cfgAct s.cfg <;> simp

/-! ## The sampler -/

/-- A sample behind some line is a fault, before any hold (40_word_sampler R103, log 17). -/
theorem State.sampleWord_behind {s : State} {p : Pos} (h : linesBefore s.data p = false) :
    s.sampleWord p = .raise .nonmonotonic := by
  have hany : (s.data.any fun l => decide (p < l.cursor.pos)) = true := by
    obtain ⟨l, hl, hp⟩ := List.all_eq_false.mp h
    exact List.any_eq_true.mpr ⟨l, hl, by simpa using hp⟩
  rw [State.sampleWord, if_pos hany]

/-- The first line of a sample that cannot be read waits (20_memory R56, R58; 92_eei_decisions D32). -/
theorem State.sampleWord_waits {s : State} {p : Pos} (hd : s.data ≠ []) (h : linesBefore s.data p = true)
    (hr : s.producer.readable p = false) : s.sampleWord p = s.producer.wait := by
  have hany : ¬ (s.data.any fun l => decide (p < l.cursor.pos)) = true := by
    simp only [List.any_eq_true, decide_eq_true_eq, not_exists, not_and, BitVec.not_lt]
    exact fun l hl => by simpa using List.all_eq_true.mp h l hl
  obtain ⟨l, ls, hls⟩ := List.exists_cons_of_ne_nil hd
  have hl : ¬ p < l.cursor.pos := fun hp => hany (List.any_eq_true.mpr ⟨l, by simp [hls], by simpa using hp⟩)
  rw [State.sampleWord, if_neg hany, hls, sampleLines, Cursor.advanceToAbsolute, if_neg hl]
  by_cases hb : p < s.producer.buffered ∨ s.producer.ended = true
  · rw [if_pos hb, Res.ok_bind, Cursor.currentLevel_unreadable hr]
    simp
  · rw [if_neg hb]
    have hlive : s.producer.ended = false := by simpa using (not_or.mp hb).2
    simp [Producer.wait, hlive]

/-- Settles O9: the completed sample, its word left in `ret`. -/
theorem sampleWordCompletes : Obligations.SampleWordCompletes := by
  intro s p hl hr
  refine exec_of_ok ?_
  rw [State.opRes, State.sampleWord_of_readable hl hr]
  rfl

/-- Settles O11: the fault of a line past the sample comes first, then the wait of the first line. -/
theorem sampleWordStopsOrHolds : Obligations.SampleWordStopsOrHolds := by
  intro s p hd
  constructor
  · intro hl
    exact exec_of_raise (c := .nonmonotonic) (by rw [State.opRes, State.sampleWord_behind hl]; rfl)
  · intro hl hr
    exact exec_of_wait (by rw [State.opRes, State.sampleWord_waits hd hl hr, Producer.wait_bind])

/-! ## The emitter -/

/-- With usable parameters the estimate fits a position (41_frame_emitter R110, 92_eei_decisions D7). -/
theorem estimateNat_lt {c : Config} (hc : c.wf) (known : Bool) (w : Pos) : estimateNat c known w < 2 ^ 64 := by
  obtain ⟨-, hseed, -, hfloor, hdiv, -⟩ := hc
  unfold estimateNat
  split
  · have hw : w.toNat < 2 ^ 64 := w.isLt
    refine max_lt hfloor (Nat.div_lt_of_lt_mul ?_)
    calc w.toNat + c.estDiv / 2 < 2 ^ 64 + (c.estDiv - 1) := by omega
      _ ≤ 2 ^ 64 + 2 ^ 64 * (c.estDiv - 1) := by omega
      _ = c.estDiv * 2 ^ 64 := by
        obtain ⟨d, hd⟩ := Nat.exists_eq_add_of_le hdiv
        rw [hd]
        omega
  · exact hseed

theorem State.estimateWidth_toNat {s : State} (hc : s.config.wf) :
    s.estimateWidth.toNat = estimateNat s.config s.lastWKnown s.lastW := by
  rw [State.estimateWidth, BitVec.toNat_ofNat, Nat.mod_eq_of_lt (estimateNat_lt hc _ _)]

/-- The clamp never binds on an estimate (41_frame_emitter R115). -/
theorem State.clamp_lt_estimateWidth {s : State} (hc : s.config.wf) : s.config.estClamp < s.estimateWidth.toNat := by
  rw [State.estimateWidth_toNat hc, estimateNat]
  obtain ⟨hseed, -, hfloor, -⟩ := hc
  split
  · exact lt_max_of_lt_left hfloor
  · exact hseed

/-- Settles O12: the estimate is left in `ret`, and it fits 64 bits. -/
theorem estimatedWidthIsExact : Obligations.EstimatedWidthIsExact :=
  fun s hc => ⟨s.estimateWidth, exec_of_ok rfl, State.estimateWidth_toNat hc⟩

/-- Settles O13: everything a commit writes. -/
theorem commitCompletes : Obligations.CommitCompletes :=
  fun s v p q _ => exec_of_ok (congrArg Res.ok (s.commit_eq v p q))

/-- Settles O14: each operation appends its one record. -/
theorem reportAndArrowComplete : Obligations.ReportAndArrowComplete := fun _ _ _ => ⟨rfl, rfl⟩

end Sys2Proof.Machine
end

section
/-! SUPPORT. The edge-gated decoder's operations as full next states (42_edge_decoder R131 to R136). -/

namespace Sys2Proof.Machine

/-! ## The seek -/

theorem State.seekActive_buffered {s : State} {a : Level} {e : Pos} (hm : Memory.wf s = true)
    (ha : cfgAct s.cfg = some a) (he : s.clk.trace.nextActive a s.clk.pos = some e) (hb : e < s.producer.buffered) :
    s.seekActive = .ok { s with clk := { s.clk with pos := e } } := by
  rw [State.seekActive, State.act_of_cfgAct ha, Res.ok_bind,
    Cursor.seekActive_buffered (State.clk_wf_of_memory_wf hm) he hb]
  rfl

theorem State.seekActive_waits {s : State} {a : Level} (hm : Memory.wf s = true) (ha : cfgAct s.cfg = some a)
    (hk : s.producer.known (s.clk.trace.nextActive a s.clk.pos) = false) : s.seekActive = s.producer.wait := by
  rw [State.seekActive, State.act_of_cfgAct ha, Res.ok_bind,
    Cursor.seekActive_waits (State.clk_wf_of_memory_wf hm) hk, Producer.wait_bind]

/-- Settles O15: one or two advances reach the next active edge, or one of them waits. -/
theorem seekActiveReachesNextActive : Obligations.SeekActiveReachesNextActive := fun _ _ hm ha =>
  ⟨fun _ he hb => exec_of_ok (State.seekActive_buffered hm ha he hb),
    fun hk => exec_of_wait (State.seekActive_waits hm ha hk)⟩

theorem State.eSeek_buffered {s : State} {a : Level} {e : Pos} (hm : Memory.wf s = true)
    (ha : cfgAct s.cfg = some a) (he : s.clk.trace.nextActive a s.clk.pos = some e) (hb : e < s.producer.buffered) :
    s.eSeek = .ok { s with clk := { s.clk with pos := e }, phase := .eEdge } := by
  rw [State.eSeek, State.seekActive_buffered hm ha he hb]
  rfl

theorem State.eSeek_waits {s : State} {a : Level} (hm : Memory.wf s = true) (ha : cfgAct s.cfg = some a)
    (hk : s.producer.known (s.clk.trace.nextActive a s.clk.pos) = false) : s.eSeek = s.producer.wait := by
  rw [State.eSeek, State.seekActive_waits hm ha hk, Producer.wait_bind]

/-- Settles O16: the seek, and on to `E_EDGE`. -/
theorem edgeSeekCompletes : Obligations.EdgeSeekCompletes := fun _ _ hm ha =>
  ⟨fun _ he hb => exec_of_ok (State.eSeek_buffered hm ha he hb),
    fun hk => exec_of_wait (State.eSeek_waits hm ha hk)⟩

/-! ## The end of a frame -/

/-- The state after a frame of the edge-gated decoder ends before the edge `e` and goes on in `ph`. -/
def State.endFrameAt (s : State) (w : Word) (p e : Pos) (ph : Phase) : State :=
  { ({ s with clk := { s.clk with pos := e } } : State).commit w p (e - 1#64) with phase := ph }

section
variable {s : State} {w : Word} {p i : Pos} (hi : s.clk.trace.nextEdge s.clk.pos = some i)
  (hb : i < s.producer.buffered)
include hi hb

theorem State.finishReal_active {a : Pos} (ha : s.clk.trace.nextEdge i = some a) (hab : a < s.producer.buffered) :
    s.finishReal w p = .ok (s.endFrameAt w p a .eEdge) := by
  have hadv : Cursor.advanceToNextEdge s.producer { s.clk with pos := i } = .ok { s.clk with pos := a } :=
    Cursor.advance_buffered ha hab
  rw [State.finishReal, Cursor.advance_buffered hi hb, Res.ok_bind,
    if_pos (Cursor.moreBuffered_iff.mpr ⟨a, ha, hab⟩), hadv]
  rfl

theorem State.finishReal_inactive (hk : s.producer.known (s.clk.trace.nextEdge i) = false) :
    s.finishReal w p = .ok (s.endFrameAt w p i .eSeek) := by
  rw [State.finishReal, Cursor.advance_buffered hi hb, Res.ok_bind, if_neg (by simpa [Cursor.moreBuffered] using hk)]
  rfl

end

/-- Settles O17: the frame ends before the last edge that is buffered, which is after the clock cursor. -/
theorem finishRealCompletes : Obligations.FinishRealCompletes := by
  intro s w p i hi hb
  have hlt : s.clk.pos < i := (Trace.nextEdge_some hi).2
  constructor
  · intro a ha hab
    refine ⟨exec_of_ok (State.finishReal_active hi hb ha hab), ?_⟩
    rintro rfl
    exact le_sub_one_of_lt (BitVec.lt_trans hlt (Trace.nextEdge_some ha).2)
  · intro hk
    refine ⟨exec_of_ok (State.finishReal_inactive hi hb hk), ?_⟩
    rintro rfl
    exact le_sub_one_of_lt hlt

/-! ## The edge and the probe -/

/-- The state after the sample and the arrow of level `a` at the clock cursor (40_word_sampler R100, R102). -/
def State.sampledAtClk (s : State) (a : Level) : State :=
  { s with
    data := linesAt s.data s.clk.pos
    out := s.out ++ dots s.data.length s.clk.pos ++ [.marker { kind := arrow a, channel := .clk, pos := s.clk.pos }] }

section
variable {s : State} {a : Level} (ha : cfgAct s.cfg = some a) (hl : linesBefore s.data s.clk.pos = true)
  (hr : s.producer.readable s.clk.pos = true)
include ha hl hr

theorem State.eEdge_more (hk : s.producer.known (s.clk.trace.nextEdge s.clk.pos) = true) :
    s.eEdge = (s.sampledAtClk a).finishReal (wordAt s.data s.clk.pos) s.clk.pos := by
  rw [State.eEdge, State.act_of_cfgAct ha, Res.ok_bind, State.sampleWord_of_readable hl hr, Res.ok_bind]
  exact if_pos hk

theorem State.eEdge_last (hk : s.producer.known (s.clk.trace.nextEdge s.clk.pos) = false) :
    s.eEdge = .ok { s.sampledAtClk a with
      sLatch := s.clk.pos, wLatch := wordAt s.data s.clk.pos, estLatch := s.estimateWidth, phase := .eProbe } := by
  rw [State.eEdge, State.act_of_cfgAct ha, Res.ok_bind, State.sampleWord_of_readable hl hr, Res.ok_bind]
  exact if_neg (ne_of_eq_of_ne hk Bool.false_ne_true)

theorem State.qEdge_completes : s.qEdge = .ok { s.sampledAtClk a with
    sLatch := s.clk.pos, wLatch := wordAt s.data s.clk.pos, phase := .qRace } := by
  rw [State.qEdge, State.act_of_cfgAct ha, Res.ok_bind, State.sampleWord_of_readable hl hr]
  rfl

end

/-- Settles O19: the sample, and then the frame's end where its inactive edge is buffered. -/
theorem edgePhaseCompletes : Obligations.EdgePhaseCompletes := by
  intro s a ha hl hr
  refine ⟨fun hk => exec_of_ok (State.eEdge_last ha hl hr hk), fun i hi hb => ?_⟩
  have hk : s.producer.known (s.clk.trace.nextEdge s.clk.pos) = true := Producer.known_iff.mpr ⟨i, hi, hb⟩
  constructor
  · intro n hn hnb
    exact exec_of_ok ((State.eEdge_more ha hl hr hk).trans
      (State.finishReal_active (s := s.sampledAtClk a) hi hb hn hnb))
  · intro hn
    exact exec_of_ok ((State.eEdge_more ha hl hr hk).trans
      (State.finishReal_inactive (s := s.sampledAtClk a) hi hb hn))

theorem State.eProbe_overflow {s : State}
    (h : 2 ^ 64 ≤ s.sLatch.toNat + s.estLatch.toNat ∨ 2 ^ 64 ≤ s.clk.pos.toNat + s.estLatch.toNat) :
    s.eProbe = .raise .posOverflow := by
  rw [State.eProbe, State.provisionalEnd]
  split
  · rfl
  · next hmax =>
    rw [Res.ok_bind, Cursor.wouldCross_overflow (h.resolve_left (by omega))]
    rfl

section
variable {s : State} (hc : s.config.estClamp < s.estLatch.toNat) (hs : s.sLatch = s.clk.pos)
  (hf : s.clk.pos.toNat + s.estLatch.toNat < 2 ^ 64)
include hc hs hf

theorem State.eProbe_fits : s.eProbe = (s.clk.wouldCross s.producer s.estLatch).bind fun crosses =>
    if crosses then s.finishReal s.wLatch s.sLatch
    else .ok ((s.commit s.wLatch s.sLatch (s.clk.pos + s.estLatch - 1#64)).setPhase .eSeek) := by
  rw [State.eProbe, State.provisionalEnd_of_fits hc (hs ▸ hf), Res.ok_bind, hs]

theorem State.eProbe_crosses {i : Pos} (hi : s.clk.trace.nextEdge s.clk.pos = some i)
    (hb : s.producer.ended = true ∨ s.clk.pos.toNat + s.estLatch.toNat < s.producer.buffered.toNat)
    (hle : i.toNat ≤ s.clk.pos.toNat + s.estLatch.toNat) : s.eProbe = s.finishReal s.wLatch s.sLatch := by
  rw [State.eProbe_fits hc hs hf, Cursor.wouldCross_settled (b := true) hf hb (by simpa [hi] using hle)]
  rfl

theorem State.eProbe_provisional
    (hb : s.producer.ended = true ∨ s.clk.pos.toNat + s.estLatch.toNat < s.producer.buffered.toNat)
    (hno : ∀ i, s.clk.trace.nextEdge s.clk.pos = some i → s.clk.pos.toNat + s.estLatch.toNat < i.toNat) :
    s.eProbe = .ok { s.commit s.wLatch s.sLatch (s.clk.pos + s.estLatch - 1#64) with phase := .eSeek } := by
  rw [State.eProbe_fits hc hs hf, Cursor.wouldCross_settled (b := false) hf hb (by simpa using hno)]
  rfl

end

/-- Settles O20: the overflow first, then the window, then the edge in it. -/
theorem edgeProbeCompletes : Obligations.EdgeProbeCompletes := by
  refine ⟨fun s h => exec_of_raise (c := .posOverflow) (State.eProbe_overflow h), fun s hc hs hf =>
    ⟨fun hl hb => ?_, fun hb => ⟨fun i hi hle => ?_, fun hno => ?_⟩⟩⟩
  · rw [exec_eq_settle, State.opRes, State.eProbe_fits hc hs hf, Cursor.wouldCross_holds hf hl hb]
    rfl
  · rw [exec_eq_settle, exec_eq_settle, State.opRes, State.opRes, State.eProbe_crosses hc hs hf hi hb hle]
  · exact exec_of_ok (State.eProbe_provisional hc hs hf hb hno)

end Sys2Proof.Machine
end

section
/-! SUPPORT. The chip-select-gated decoder's phases as full next states (43_cs_decoder R150 to R159). -/

namespace Sys2Proof.Machine

/-! ## Synchronisation -/

/-- The clock follows chip-select forward, and a clock past the edge is a fault (43_cs_decoder R150, R157). -/
theorem State.syncClock_buffered {s : State} {c : Cursor} (hb : c.pos < s.producer.buffered) (hle : s.clk.pos ≤ c.pos) :
    s.syncClock c = .ok { s with cs := some c, clk := { s.clk with pos := c.pos } } := by
  rw [State.syncClock, Cursor.advanceToAbsolute_eq_ok.mpr ⟨hle, .inl hb, rfl⟩]
  rfl

theorem State.syncClock_behind {s : State} {c : Cursor} (h : c.pos < s.clk.pos) :
    s.syncClock c = .raise .nonmonotonic := by
  rw [State.syncClock, Cursor.advanceToAbsolute_behind h]
  rfl

section
variable {s : State} {c : Cursor} (hc : s.cs = some c)
include hc

theorem State.qInit_low (hr : s.producer.readable c.pos = true) (hl : c.trace.level c.pos = false) :
    s.qInit = .ok { s with seq := 0#64, newAssert := true, phase := .qAlign } := by
  rw [State.qInit, State.csCursor_eq_ok.mpr hc, Res.ok_bind, Cursor.currentLevel_readable hr, Res.ok_bind, hl]
  rfl

theorem State.qInit_high (hr : s.producer.readable c.pos = true) (hl : c.trace.level c.pos = true) :
    s.qInit = ((c.advanceToNextEdge s.producer).bind fun d => s.syncClock d).bind fun t =>
      .ok (t.beginAssertion.setPhase .qAlign) := by
  rw [State.qInit, State.csCursor_eq_ok.mpr hc, Res.ok_bind, Cursor.currentLevel_readable hr, Res.ok_bind, hl]
  rfl

theorem State.qInit_waits (h : s.producer.readable c.pos = false ∨
    c.trace.level c.pos = true ∧ s.producer.known (c.trace.nextEdge c.pos) = false) : s.qInit = s.producer.wait := by
  by_cases hr : s.producer.readable c.pos = true
  · obtain ⟨hl, hk⟩ := h.resolve_left (by simp [hr])
    rw [State.qInit_high hc hr hl, Cursor.advance_waits hk, Producer.wait_bind, Producer.wait_bind]
  · rw [State.qInit, State.csCursor_eq_ok.mpr hc, Res.ok_bind,
      Cursor.currentLevel_unreadable (Bool.not_eq_true _ ▸ hr), Producer.wait_bind]

theorem State.qReassert_eq : s.qReassert = (c.advanceToNextEdge s.producer).bind fun d =>
    (s.syncClock d).bind fun t =>
      .ok (((t.reportProgress d.pos).beginAssertion.forgetWidth).setPhase .qAlign) := by
  rw [State.qReassert, State.csCursor_eq_ok.mpr hc, Res.ok_bind]

end

/-- Settles O21: chip-select read low, read high with its falling edge buffered, or waited for. -/
theorem chipSelectInitCompletes : Obligations.ChipSelectInitCompletes := by
  intro s c hc
  refine ⟨fun hr hl => exec_of_ok (State.qInit_low hc hr hl), fun f hr hl hf hb hle => exec_of_ok ?_,
    fun h => exec_of_wait (State.qInit_waits hc h)⟩
  rw [State.opRes, State.qInit_high hc hr hl, Cursor.advance_buffered hf hb, Res.ok_bind,
    State.syncClock_buffered hb hle]
  rfl

/-- Settles O26: the next assertion edge buffered, or waited for. -/
theorem chipSelectReassertCompletes : Obligations.ChipSelectReassertCompletes := by
  intro s c hc
  refine ⟨fun f hf hb hle => exec_of_ok ?_, fun hk => exec_of_wait ?_⟩
  · rw [State.opRes, State.qReassert_eq hc, Cursor.advance_buffered hf hb, Res.ok_bind, State.syncClock_buffered hb hle]
    rfl
  · rw [State.opRes, State.qReassert_eq hc, Cursor.advance_waits hk, Producer.wait_bind]

/-- Settles O25: the deassertion edge is reported. -/
theorem chipSelectDeassertCompletes : Obligations.ChipSelectDeassertCompletes := by
  intro s c q hc hq hb
  refine exec_of_ok ?_
  rw [State.opRes, State.qDeassert, State.csCursor_eq_ok.mpr hc, Res.ok_bind, Cursor.advance_buffered hq hb]
  rfl

/-! ## Races -/

section
variable {s : State} {a : Level} {c : Cursor} (ha : cfgAct s.cfg = some a) (hc : s.cs = some c)
include ha hc

theorem State.qAlign_eq : s.qAlign =
    (s.producer.race (s.clk.trace.nextActive a s.clk.pos) (c.trace.nextEdge c.pos)).bind fun clockWins =>
      if clockWins then s.toActiveEdge (s.clk.trace.nextActive a s.clk.pos) else .ok (s.setPhase .qDeassert) := by
  rw [State.qAlign, State.act_of_cfgAct ha, Res.ok_bind, State.csCursor_eq_ok.mpr hc, Res.ok_bind]

theorem State.qRace_eq : s.qRace =
    (s.producer.race (s.clk.trace.nextActive a s.sLatch) (c.trace.nextEdge c.pos)).bind fun clockWins =>
      if clockWins then
        (s.commit s.wLatch s.sLatch (lastBefore (s.clk.trace.nextActive a s.sLatch))).toActiveEdge
          (s.clk.trace.nextActive a s.sLatch)
      else .ok ((s.commit s.wLatch s.sLatch (lastBefore (c.trace.nextEdge c.pos))).setPhase .qDeassert) := by
  rw [State.qRace, State.act_of_cfgAct ha, Res.ok_bind, State.csCursor_eq_ok.mpr hc, Res.ok_bind]

/-- The race the clock wins commits up to its active edge, and goes there unless that is backward. -/
theorem State.qRace_clock {p : Pos} (hp : s.clk.trace.nextActive a s.sLatch = some p) (hb : p < s.producer.buffered)
    (hq : ∀ q, c.trace.nextEdge c.pos = some q → p < q) :
    s.qRace = if p < s.clk.pos then .raise .nonmonotonic
      else .ok { s.commit s.wLatch s.sLatch (p - 1#64) with clk := { s.clk with pos := p }, phase := .qEdge } := by
  have hcommit : (s.commit s.wLatch s.sLatch (p - 1#64)).producer = s.producer ∧
      (s.commit s.wLatch s.sLatch (p - 1#64)).clk = s.clk := by rw [State.commit_eq]; exact ⟨rfl, rfl⟩
  rw [State.qRace_eq ha hc, Producer.race_of_clock hp hb hq, Res.ok_bind, if_pos rfl, hp, lastBefore,
    State.toActiveEdge_buffered (by rw [hcommit.1]; exact hb), hcommit.2]

end

/-- Settles O22: the race from the clock cursor. -/
theorem chipSelectAlignCompletes : Obligations.ChipSelectAlignCompletes := by
  intro s a c ha hc
  refine ⟨fun p hp hb hq => exec_of_ok ?_, fun q hq hb hp => exec_of_ok ?_, fun hka hkc => exec_of_wait ?_⟩
  · rw [State.opRes, State.qAlign_eq ha hc, Producer.race_of_clock hp hb hq, Res.ok_bind, if_pos rfl, hp,
      State.toActiveEdge_buffered hb, if_neg (BitVec.not_lt.mpr (BitVec.le_of_lt (Trace.nextActive_some hp).2.1))]
  · rw [State.opRes, State.qAlign_eq ha hc, Producer.race_of_chipSelect hq hb hp]
    rfl
  · rw [State.opRes, State.qAlign_eq ha hc, Producer.race_waits hka hkc, Producer.wait_bind]

/-- Settles O23: the sample, the arrow and the latches. -/
theorem chipSelectEdgeCompletes : Obligations.ChipSelectEdgeCompletes :=
  fun _ _ ha hl hr => exec_of_ok (State.qEdge_completes ha hl hr)

/-- Settles O24: the race from the frame's start, with the frame committed where it is settled. -/
theorem chipSelectRaceCompletes : Obligations.ChipSelectRaceCompletes := by
  intro s a c ha hc
  refine ⟨fun p hp hb hq => ⟨fun hle => exec_of_ok ?_, fun hlt => exec_of_raise (c := .nonmonotonic) ?_⟩,
    fun q hq hb hp => exec_of_ok ?_, fun hka hkc => exec_of_wait ?_⟩
  · rw [State.opRes, State.qRace_clock ha hc hp hb hq, if_neg (BitVec.not_lt.mpr hle)]
  · rw [State.opRes, State.qRace_clock ha hc hp hb hq, if_pos hlt]
  · rw [State.opRes, State.qRace_eq ha hc, Producer.race_of_chipSelect hq hb hp, hq]
    rfl
  · rw [State.opRes, State.qRace_eq ha hc, Producer.race_waits hka hkc, Producer.wait_bind]

end Sys2Proof.Machine
end

section
/-! SUPPORT. The dual-edge decoder's operations as full next states (44_dual_edge_decoder R171 to R174), and
the value law of a sampled word (40_word_sampler R101). -/

namespace Sys2Proof.Machine

/-- The state after a pending frame is closed before the edge `e` and the next one opened at it, with the
arrow of level `l`. -/
def State.reopenedAt (s : State) (e : Pos) (l : Level) : State :=
  { s.closePending e with
    data := linesAt s.data e
    out := (s.closePending e).out ++ dots s.data.length e ++ [.marker { kind := arrow l, channel := .clk, pos := e }]
    pendVal := wordAt s.data e
    pendStart := e
    pendValid := true
    phase := .dHead }

/-- Closing the pending frame moves no cursor and writes nothing of the environment. -/
theorem State.closePending_reads (s : State) (e : Pos) :
    (s.closePending e).data = s.data ∧ (s.closePending e).producer = s.producer := by
  unfold State.closePending
  split
  · rw [State.commit_eq]
    exact ⟨rfl, rfl⟩
  · exact ⟨rfl, rfl⟩

theorem State.closeAndOpen_completes {s : State} {e : Pos} (hl : linesBefore s.data e = true)
    (hr : s.producer.readable e = true) : s.closeAndOpen e = .ok (s.reopenedAt e (s.clk.trace.level e)) := by
  obtain ⟨hdata, hprod⟩ := s.closePending_reads e
  have hsample := State.sampleWord_of_readable (s := s.closePending e) (p := e) (by rw [hdata]; exact hl)
    (by rw [hprod]; exact hr)
  have hlevel : Cursor.currentLevel s.producer { s.clk with pos := e } = .ok (s.clk.trace.level e) :=
    Cursor.currentLevel_readable hr
  simp only [State.closeAndOpen, hsample, Res.ok_bind, hlevel, hdata]
  rfl

theorem State.closeAndOpen_behind {s : State} {e : Pos} (h : linesBefore s.data e = false) :
    s.closeAndOpen e = .raise .nonmonotonic := by
  have hsample := State.sampleWord_behind (s := s.closePending e) (p := e) (by rw [(s.closePending_reads e).1]; exact h)
  simp only [State.closeAndOpen, hsample, Res.raise_bind]

/-- Settles O28: the close and the open in one step. -/
theorem closeAndOpenCompletes : Obligations.CloseAndOpenCompletes :=
  fun _ _ _ hl hr => exec_of_ok (State.closeAndOpen_completes hl hr)

theorem State.dHead_probe {s : State} (hv : s.pendValid = true)
    (hk : s.producer.known (s.clk.trace.nextEdge s.clk.pos) = false) :
    s.dHead = { s with estLatch := s.estimateWidth, phase := .dProbe } := by
  rw [State.dHead, if_pos (by simpa [hv, Cursor.moreBuffered] using hk)]
  rfl

theorem State.dHead_advance {s : State}
    (h : s.pendValid = false ∨ s.producer.known (s.clk.trace.nextEdge s.clk.pos) = true) :
    s.dHead = { s with phase := .dAdvance } := by
  rw [State.dHead, if_neg (by simpa [Cursor.moreBuffered, ← Bool.not_eq_true, imp_iff_not_or] using h)]
  rfl

/-- Settles O27: the two ways `D_HEAD` goes. -/
theorem dualHeadCompletes : Obligations.DualHeadCompletes := fun _ =>
  ⟨fun hv hk => exec_of_ok (congrArg Res.ok (State.dHead_probe hv hk)),
    fun h => exec_of_ok (congrArg Res.ok (State.dHead_advance h))⟩

section
variable {s : State} {e : Pos} (he : s.clk.trace.nextEdge s.clk.pos = some e) (hb : e < s.producer.buffered)
include he hb

theorem State.toRealEdge_buffered :
    s.toRealEdge = ({ s with clk := { s.clk with pos := e } } : State).closeAndOpen e := by
  rw [State.toRealEdge, Cursor.advance_buffered he hb]
  rfl

theorem State.toRealEdge_completes (hl : linesBefore s.data e = true) :
    s.toRealEdge =
      .ok (({ s with clk := { s.clk with pos := e } } : State).reopenedAt e (s.clk.trace.level e)) := by
  rw [State.toRealEdge_buffered he hb]
  exact State.closeAndOpen_completes (s := { s with clk := { s.clk with pos := e } }) hl (Producer.readable_of_lt hb)

theorem State.toRealEdge_behind (hl : linesBefore s.data e = false) : s.toRealEdge = .raise .nonmonotonic := by
  rw [State.toRealEdge_buffered he hb]
  exact State.closeAndOpen_behind (s := { s with clk := { s.clk with pos := e } }) hl

end

theorem State.toRealEdge_waits {s : State} (hk : s.producer.known (s.clk.trace.nextEdge s.clk.pos) = false) :
    s.toRealEdge = s.producer.wait := by
  rw [State.toRealEdge, Cursor.advance_waits hk, Producer.wait_bind]

/-- A commit and the clock's move write different registers. -/
theorem State.closePending_setClk (s : State) (c : Cursor) (e : Pos) :
    ({ s with clk := c } : State).closePending e = { s.closePending e with clk := c } := by
  unfold State.closePending
  cases h : s.pendValid <;> simp [h, State.commit_eq, State.frameSeq]

/-- Settles O29: the next edge buffered, or waited for. -/
theorem dualAdvanceCompletes : Obligations.DualAdvanceCompletes := by
  intro s
  refine ⟨fun e he hb hl => exec_of_ok ?_, fun hk => exec_of_wait (State.toRealEdge_waits hk)⟩
  rw [State.opRes, State.toRealEdge_completes he hb hl, State.reopenedAt, State.closePending_setClk]
  rfl

section
variable {s : State} (hf : s.clk.pos.toNat + s.estLatch.toNat < 2 ^ 64)
  (hb : s.producer.ended = true ∨ s.clk.pos.toNat + s.estLatch.toNat < s.producer.buffered.toNat)
include hf hb

theorem State.dProbe_crosses {i : Pos} (hi : s.clk.trace.nextEdge s.clk.pos = some i)
    (hle : i.toNat ≤ s.clk.pos.toNat + s.estLatch.toNat) : s.dProbe = s.toRealEdge := by
  rw [State.dProbe, Cursor.wouldCross_settled (b := true) hf hb (by simpa [hi] using hle)]
  rfl

theorem State.dProbe_provisional
    (hno : ∀ i, s.clk.trace.nextEdge s.clk.pos = some i → s.clk.pos.toNat + s.estLatch.toNat < i.toNat) :
    s.dProbe = .ok { s.commit s.pendVal s.pendStart (s.clk.pos + s.estLatch - 1#64) with
      clk := { s.clk with pos := s.clk.pos + s.estLatch }, pendValid := false, phase := .dHead } := by
  have hmove : s.clk.advanceToAbsolute s.producer (s.clk.pos + s.estLatch) =
      .ok { s.clk with pos := s.clk.pos + s.estLatch } := by
    refine Cursor.advanceToAbsolute_eq_ok.mpr ⟨?_, ?_, rfl⟩
    · rw [BitVec.le_def, window_toNat hf]
      omega
    · rw [BitVec.lt_def, window_toNat hf]
      exact hb.symm
  rw [State.dProbe, Cursor.wouldCross_settled (b := false) hf hb (by simpa using hno), Res.ok_bind,
    if_neg Bool.false_ne_true, hmove, Res.ok_bind, State.commit_eq, State.commit_eq]
  rfl

end

/-- Settles O30: the overflow first, then the window, then the edge in it. -/
theorem dualProbeCompletes : Obligations.DualProbeCompletes := by
  refine fun s => ⟨fun h => exec_of_raise (c := .posOverflow) ?_, fun hf =>
    ⟨fun hl hb => ?_, fun hb => ⟨fun i hi hle => ?_, fun hno => exec_of_ok (State.dProbe_provisional hf hb hno)⟩⟩⟩
  · rw [State.opRes, State.dProbe, Cursor.wouldCross_overflow h]
    rfl
  · rw [exec_eq_settle, State.opRes, State.dProbe, Cursor.wouldCross_holds hf hl hb]
    rfl
  · rw [exec_eq_settle, exec_eq_settle, State.opRes, State.opRes, State.dProbe_crosses hf hb hi hle]

/-! ## The value law -/

/-- With masks `1 << j, 1 << (j + 1), ...` bit `j + k` of the word is the level of line `k` (40_word_sampler R101). -/
theorem wordAt_getLsbD {ls : List Line} {j : Nat} {p : Pos}
    (hm : ls.map (fun l => l.mask) = (List.range' j ls.length).map fun i => 1#16 <<< i) (hn : j + ls.length ≤ 16)
    (k : Nat) :
    (wordAt ls p).getLsbD k = (decide (j ≤ k) && match ls[k - j]? with
      | some l => l.cursor.trace.level p
      | none => false) := by
  induction ls generalizing j with
  | nil => simp [wordAt]
  | cons l ls ih =>
    simp only [List.map_cons, List.length_cons, List.range'_succ, List.cons.injEq] at hm hn
    obtain ⟨hmask, hm⟩ := hm
    have hbits : (l.bits (l.cursor.trace.level p)).getLsbD k = (decide (j = k) && l.cursor.trace.level p) := by
      have hj : j < 16 := by omega
      unfold Line.bits
      rw [hmask]
      cases l.cursor.trace.level p
      · simp
      · rw [if_pos rfl, BitVec.getLsbD_shiftLeft, BitVec.getLsbD_one]
        rw [Bool.eq_iff_iff]
        simp
        omega
    rw [wordAt_cons, BitVec.getLsbD_or, hbits, ih hm (by omega)]
    rcases Nat.lt_trichotomy k j with hk | rfl | hk
    · simp [Nat.not_le.mpr hk, Nat.ne_of_gt hk, Nat.not_le.mpr (Nat.lt_succ_of_lt hk)]
    · simp
    · obtain ⟨d, hd⟩ := Nat.exists_eq_add_of_lt hk
      have h1 : k - j = d + 1 := by omega
      have h2 : k - (j + 1) = d := by omega
      simp [h1, h2, Nat.ne_of_lt hk, Nat.le_of_lt hk, Nat.succ_le_of_lt hk]

/-- Bit `k` of a word is the level of line `k`, and 0 where there is no line `k`. -/
theorem wordAt_bit {ls : List Line} {p : Pos} (hm : masksOk ls = true) (hn : ls.length ≤ 16) (k : Nat) :
    (wordAt ls p).getLsbD k = match ls[k]? with
      | some l => l.cursor.trace.level p
      | none => false := by
  have h := wordAt_getLsbD (j := 0) (p := p) (by rw [← List.range_eq_range']; exact beq_iff_eq.mp hm) (by omega) k
  simpa using h

/-- Settles O10: both registers keep the word of the lines at the sampling position. -/
theorem sampledWordValue : Obligations.SampledWordValue := fun _ hm hn =>
  ⟨fun _ hl hr => ⟨_, exec_of_ok (State.closeAndOpen_completes hl hr), fun k => wordAt_bit hm hn k⟩,
    fun _ ha hl hr => ⟨_, exec_of_ok (State.qEdge_completes ha hl hr), fun k => wordAt_bit hm hn k⟩⟩

end Sys2Proof.Machine
end

section
/-! SUPPORT. The moves of the environment as full next states, and the final phases (60_exceptions R206, R208,
R210, R213; 20_memory R52; 70_reset_and_hazards R220). -/

namespace Sys2Proof.Machine

theorem step_host {s : State} {m : HostMove} {rest : List Turn} (h : s.schedule = .host m :: rest) :
    step s = .next ((s.setSchedule rest).hostMove m) := by
  rw [step, h]

/-- A turn of the block, listed or not, is a block step; every other turn is a move of the environment. -/
theorem step_cases {s t : State} (h : step s = .next t) :
    (∃ u, (u = s ∨ ∃ rest, s.schedule = .block :: rest ∧ u = s.setSchedule rest) ∧ blockStep u = .next t) ∨
      ∃ m rest, s.schedule = .host m :: rest ∧ t = (s.setSchedule rest).hostMove m := by
  unfold step at h
  split at h
  · exact .inl ⟨s, .inl rfl, h⟩
  · next rest hs => exact .inl ⟨_, .inr ⟨rest, hs, rfl⟩, h⟩
  · next m rest hs =>
    cases h
    exact .inr ⟨m, rest, hs, rfl⟩

/-- What a move of the environment can do (60_exceptions R213, log 5). -/
inductive State.Moves (s : State) : HostMove → State → Prop
  | append {n : Nat} {b : Pos} (hlive : s.producer.ended = false) (hn : 0 < n)
      (hb : b.toNat = s.producer.buffered.toNat + n) :
      s.Moves (.append n) (s.setProducer { buffered := b, ended := false })
  | endCapture (hfits : s.captured.all (fun t => t.fits s.producer.buffered) = true) :
      s.Moves .endCapture (s.setProducer { s.producer with ended := true })
  | cancel (hrun : s.phase.final = false) : s.Moves .cancel (s.setPhase .cancelled)
  | present {i : Inputs} (hwf : i.traces.all Trace.wf = true) (hidle : s.phase = .idle → i.usable s.producer = true) :
      s.Moves (.present i) (s.setInputs i)
  | newRun {pr : Producer} (hfinal : s.phase.final = true) (husable : s.inputs.usable pr = true) :
      s.Moves (.newRun pr) { State.reset with
        config := s.config, inputs := s.inputs, producer := pr, sink := s.sink ++ [s.out], schedule := s.schedule }
  | none {m : HostMove} : s.Moves m s

theorem State.hostMove_append {s : State} {n : Nat} (hlive : s.producer.ended = false) (hn : 0 < n)
    (hfit : s.producer.buffered.toNat + n < 2 ^ 64) :
    s.hostMove (.append n) =
      s.setProducer { buffered := BitVec.ofNat 64 (s.producer.buffered.toNat + n), ended := false } := by
  rw [State.hostMove, if_pos ⟨hlive, hn, hfit⟩]
  simp only [hlive]

theorem State.hostMove_moves (s : State) (m : HostMove) : s.Moves m (s.hostMove m) := by
  cases m with
  | append n =>
    by_cases h : s.producer.ended = false ∧ 0 < n ∧ s.producer.buffered.toNat + n < 2 ^ 64
    · obtain ⟨hlive, hn, hfit⟩ := h
      rw [State.hostMove_append hlive hn hfit]
      exact .append hlive hn (by rw [BitVec.toNat_ofNat, Nat.mod_eq_of_lt hfit])
    · rw [State.hostMove, if_neg h]
      exact .none
  | endCapture =>
    simp only [State.hostMove]
    split
    · next h => exact .endCapture h
    · exact .none
  | cancel =>
    simp only [State.hostMove]
    split
    · exact .none
    · next h => exact .cancel (by simpa using h)
  | present i =>
    simp only [State.hostMove]
    split
    · next h =>
      simp only [Bool.and_eq_true, Bool.or_eq_true, bne_iff_ne] at h
      exact .present h.1 fun hidle => h.2.resolve_left (not_not.mpr hidle)
    · exact .none
  | newRun pr =>
    simp only [State.hostMove]
    split
    · next h =>
      simp only [Bool.and_eq_true] at h
      exact .newRun h.1 h.2
    · exact .none

/-- Settles O32: the host's cancellation of a run that has not ended. -/
theorem cancelSetsPhaseOnly : Obligations.CancelSetsPhaseOnly := by
  intro s rest hs hf
  have hcancel : ¬(s.setSchedule rest).phase.final = true := by simpa using hf
  rw [step_host hs, State.hostMove, if_neg hcancel]
  rfl

/-- Settles O33: the two moves of the producer under their conditions. -/
theorem producerMovesOnlyCapture : Obligations.ProducerMovesOnlyCapture := by
  refine fun s rest => ⟨fun n hs hlive hn hfit => ⟨BitVec.ofNat 64 (s.producer.buffered.toNat + n), ?_, ?_⟩, fun hs h => ?_⟩
  · rw [BitVec.toNat_ofNat, Nat.mod_eq_of_lt hfit]
  · rw [step_host hs, State.hostMove_append (s := s.setSchedule rest) hlive hn hfit]
    rfl
  · rw [step_host hs]
    exact congrArg Host.Outcome.next (if_pos (List.all_eq_true.mpr h))

/-- Settles O34: the start state with what the host and the sink keep. -/
theorem newRunStartsFresh : Obligations.NewRunStartsFresh := by
  intro s p rest hs hfinal husable
  rw [step_host hs]
  exact congrArg Host.Outcome.next (if_pos (by simp [hfinal, husable]))

theorem blockStep_final {s : State} (h : s.phase.final = true) : blockStep s = .next s := by
  rw [blockStep_eq_settle, State.turnRes]
  cases hp : s.phase <;> simp_all [Phase.final]

/-- Settles O31: the block's turn changes nothing, and of the host's moves only a new run is the run's. -/
theorem finalPhasesAreFinal : Obligations.FinalPhasesAreFinal := by
  refine ⟨fun s => ⟨rfl, rfl, rfl⟩, fun s t hfinal hnew h => ?_⟩
  rcases step_cases h with ⟨u, hu, hb⟩ | ⟨m, rest, hs, rfl⟩
  · have huf : u.phase.final = true := by
      rcases hu with rfl | ⟨rest, -, rfl⟩ <;> exact hfinal
    rw [blockStep_final huf] at hb
    cases hb
    rcases hu with rfl | ⟨rest, -, rfl⟩ <;> rfl
  · have hmoves := (s.setSchedule rest).hostMove_moves m
    generalize (s.setSchedule rest).hostMove m = t at hmoves ⊢
    cases hmoves with
    | cancel hrun => exact absurd hfinal (by simpa using hrun)
    | newRun _ _ => exact absurd hs (hnew _ _)
    | append _ _ _ | endCapture _ | present _ _ | none => rfl

end Sys2Proof.Machine
end

section
/-! SUPPORT. What an operation can do when it completes, said once for each operation with the conditions
it completes under, and what the registers then hold. -/

namespace Sys2Proof.Machine

/-! ## Fields after a commit -/

section
variable (s : State) (v : Word) (p q : Pos)

@[simp] theorem State.commit_config : (s.commit v p q).config = s.config := by rw [State.commit_eq]
@[simp] theorem State.commit_inputs : (s.commit v p q).inputs = s.inputs := by rw [State.commit_eq]
@[simp] theorem State.commit_producer : (s.commit v p q).producer = s.producer := by rw [State.commit_eq]
@[simp] theorem State.commit_cfg : (s.commit v p q).cfg = s.cfg := by rw [State.commit_eq]
@[simp] theorem State.commit_clk : (s.commit v p q).clk = s.clk := by rw [State.commit_eq]
@[simp] theorem State.commit_cs : (s.commit v p q).cs = s.cs := by rw [State.commit_eq]
@[simp] theorem State.commit_data : (s.commit v p q).data = s.data := by rw [State.commit_eq]
@[simp] theorem State.commit_phase : (s.commit v p q).phase = s.phase := by rw [State.commit_eq]
@[simp] theorem State.commit_lastW : (s.commit v p q).lastW = frameWidth p q := by rw [State.commit_eq]
@[simp] theorem State.commit_lastWKnown : (s.commit v p q).lastWKnown = true := by rw [State.commit_eq]
@[simp] theorem State.commit_seq :
    (s.commit v p q).seq = if cfgCsEn s.cfg then s.seq + 1#64 else s.seq := by rw [State.commit_eq]
@[simp] theorem State.commit_newAssert :
    (s.commit v p q).newAssert = if cfgCsEn s.cfg then false else s.newAssert := by rw [State.commit_eq]
@[simp] theorem State.commit_sLatch : (s.commit v p q).sLatch = s.sLatch := by rw [State.commit_eq]
@[simp] theorem State.commit_wLatch : (s.commit v p q).wLatch = s.wLatch := by rw [State.commit_eq]
@[simp] theorem State.commit_estLatch : (s.commit v p q).estLatch = s.estLatch := by rw [State.commit_eq]
@[simp] theorem State.commit_pendValid : (s.commit v p q).pendValid = s.pendValid := by rw [State.commit_eq]
@[simp] theorem State.commit_pendVal : (s.commit v p q).pendVal = s.pendVal := by rw [State.commit_eq]
@[simp] theorem State.commit_pendStart : (s.commit v p q).pendStart = s.pendStart := by rw [State.commit_eq]
@[simp] theorem State.commit_progress : (s.commit v p q).progress = q := by rw [State.commit_eq]
@[simp] theorem State.commit_cause : (s.commit v p q).cause = s.cause := by rw [State.commit_eq]
@[simp] theorem State.commit_out : (s.commit v p q).out =
    s.out ++ [.frame { value := v, startPos := p, endPos := q, seq := s.frameSeq }, .progress q] := by
  rw [State.commit_eq]
@[simp] theorem State.commit_sink : (s.commit v p q).sink = s.sink := by rw [State.commit_eq]
@[simp] theorem State.commit_schedule : (s.commit v p q).schedule = s.schedule := by rw [State.commit_eq]
@[simp] theorem State.commit_ret : (s.commit v p q).ret = s.ret := by rw [State.commit_eq]

end

/-! ## How a cursor moved -/

/-- A seek that completes moved forward, to a buffered edge. -/
theorem Cursor.seekActive_moved {pr : Producer} {c d : Cursor} {a : Level} (h : c.seekActive pr a = .ok d) :
    ∃ e, c.pos < e ∧ e < pr.buffered ∧ d = { c with pos := e } := by
  obtain ⟨l, -, h⟩ := Res.bind_eq_ok.mp h
  split at h
  · obtain ⟨m, hm, h⟩ := Res.bind_eq_ok.mp h
    obtain ⟨i, hi, -, rfl⟩ := Cursor.advanceToNextEdge_eq_ok.mp hm
    obtain ⟨e, he, hb, rfl⟩ := Cursor.advanceToNextEdge_eq_ok.mp h
    exact ⟨e, BitVec.lt_trans (Trace.nextEdge_some hi).2 (Trace.nextEdge_some he).2, hb, rfl⟩
  · obtain ⟨e, he, hb, rfl⟩ := Cursor.advanceToNextEdge_eq_ok.mp h
    exact ⟨e, (Trace.nextEdge_some he).2, hb, rfl⟩

/-- In canonical form it is the next active edge (20_memory R62). -/
theorem Cursor.seekActive_reached {pr : Producer} {c : Cursor} {a : Level} {e : Pos} (hw : c.trace.wf = true)
    (h : c.seekActive pr a = .ok { c with pos := e }) : c.trace.nextActive a c.pos = some e := by
  by_cases hk : pr.known (c.trace.nextActive a c.pos) = true
  · obtain ⟨f, hf, hb⟩ := Producer.known_iff.mp hk
    rw [Cursor.seekActive_buffered hw hf hb] at h
    cases h
    exact hf
  · rw [Cursor.seekActive_waits hw (by simpa using hk), Producer.wait] at h
    split at h <;> cases h

/-- A sample that completes is behind no line, and readable when there is a line (40_word_sampler R100, R103). -/
theorem State.sampleWord_before {s t : State} {p : Pos} {w : Word} (h : s.sampleWord p = .ok (t, w)) :
    linesBefore s.data p = true := by
  by_contra hl
  rw [State.sampleWord_behind (by simpa using hl)] at h
  cases h

/-! ## What an operation can do -/

/-- The two real ends of a frame of the edge-gated decoder (42_edge_decoder R133). -/
inductive State.RealEnd (s : State) (w : Word) (p : Pos) : State → Prop
  | active {i a : Pos} (hi : s.clk.trace.nextEdge s.clk.pos = some i) (ha : s.clk.trace.nextEdge i = some a)
      (hb : a < s.producer.buffered) : s.RealEnd w p (s.endFrameAt w p a .eEdge)
  | inactive {i : Pos} (hi : s.clk.trace.nextEdge s.clk.pos = some i) (hb : i < s.producer.buffered) :
      s.RealEnd w p (s.endFrameAt w p i .eSeek)

theorem State.finishReal_cases {s t : State} {w : Word} {p : Pos} (h : s.finishReal w p = .ok t) : s.RealEnd w p t := by
  obtain ⟨c, hc, h⟩ := Res.bind_eq_ok.mp h
  obtain ⟨i, hi, hb, rfl⟩ := Cursor.advanceToNextEdge_eq_ok.mp hc
  split at h
  · obtain ⟨d, hd, h⟩ := Res.bind_eq_ok.mp h
    obtain ⟨a, ha, hab, rfl⟩ := Cursor.advanceToNextEdge_eq_ok.mp hd
    cases h
    exact .active hi ha hab
  · cases h
    exact .inactive hi hb

/-- What each operation can come to when it completes, and under which conditions. -/
inductive State.Completes (s : State) : Instr → State → Prop
  | start {i : Instr} {w : BitVec 32} (hi : encode i = some (.cfg w) ∨ i = .phIdleStart ∧ w = s.inputs.cfg) :
      s.Completes i (s.start w)
  | seekActive {a : Level} {e : Pos} (ha : cfgAct s.cfg = some a)
      (hseek : s.clk.seekActive s.producer a = .ok { s.clk with pos := e }) :
      s.Completes .opSeekActive { s with clk := { s.clk with pos := e } }
  | eSeek {a : Level} {e : Pos} (ha : cfgAct s.cfg = some a)
      (hseek : s.clk.seekActive s.producer a = .ok { s.clk with pos := e }) :
      s.Completes .phESeek { s with clk := { s.clk with pos := e }, phase := .eEdge }
  | eEdgeReal {a : Level} {t : State} (ha : cfgAct s.cfg = some a) (hl : linesBefore s.data s.clk.pos = true)
      (hend : (s.sampledAtClk a).RealEnd (wordAt s.data s.clk.pos) s.clk.pos t) : s.Completes .phEEdge t
  | eEdgeLast {a : Level} (ha : cfgAct s.cfg = some a) (hl : linesBefore s.data s.clk.pos = true) :
      s.Completes .phEEdge { s.sampledAtClk a with
        sLatch := s.clk.pos, wLatch := wordAt s.data s.clk.pos, estLatch := s.estimateWidth, phase := .eProbe }
  | eProbeReal {t : State} (hend : s.RealEnd s.wLatch s.sLatch t) : s.Completes .phEProbe t
  | eProbeEmpty {q : Pos} (hq : s.provisionalEnd s.sLatch s.estLatch = .ok q)
      (hcross : s.clk.wouldCross s.producer s.estLatch = .ok false) :
      s.Completes .phEProbe { s.commit s.wLatch s.sLatch q with phase := .eSeek }
  | opFinishReal {w : Word} {p : Pos} {t : State} (hend : s.RealEnd w p t) : s.Completes (.opFinishReal w p) t
  | qInitLow {c : Cursor} (hc : s.cs = some c) (hlevel : c.trace.level c.pos = false) :
      s.Completes .phQInit { s with seq := 0#64, newAssert := true, phase := .qAlign }
  | qInitHigh {c : Cursor} {f : Pos} (hc : s.cs = some c) (hlevel : c.trace.level c.pos = true)
      (hf : c.trace.nextEdge c.pos = some f) (hb : f < s.producer.buffered) (hle : s.clk.pos ≤ f) :
      s.Completes .phQInit { s with
        cs := some { c with pos := f }, clk := { s.clk with pos := f }, seq := 0#64, newAssert := true, phase := .qAlign }
  | qAlignClock {a : Level} {c : Cursor} {p : Pos} (ha : cfgAct s.cfg = some a) (hc : s.cs = some c)
      (hp : s.clk.trace.nextActive a s.clk.pos = some p) (hb : p < s.producer.buffered)
      (hq : ∀ q, c.trace.nextEdge c.pos = some q → p < q) :
      s.Completes .phQAlign { s with clk := { s.clk with pos := p }, phase := .qEdge }
  | qAlignChip {c : Cursor} {q : Pos} (hc : s.cs = some c) (hq : c.trace.nextEdge c.pos = some q)
      (hb : q < s.producer.buffered) : s.Completes .phQAlign { s with phase := .qDeassert }
  | qEdge {a : Level} (ha : cfgAct s.cfg = some a) (hl : linesBefore s.data s.clk.pos = true) :
      s.Completes .phQEdge { s.sampledAtClk a with
        sLatch := s.clk.pos, wLatch := wordAt s.data s.clk.pos, phase := .qRace }
  | qRaceClock {a : Level} {c : Cursor} {p : Pos} (ha : cfgAct s.cfg = some a) (hc : s.cs = some c)
      (hp : s.clk.trace.nextActive a s.sLatch = some p) (hb : p < s.producer.buffered)
      (hq : ∀ q, c.trace.nextEdge c.pos = some q → p < q) (hle : s.clk.pos ≤ p) :
      s.Completes .phQRace
        { s.commit s.wLatch s.sLatch (p - 1#64) with clk := { s.clk with pos := p }, phase := .qEdge }
  | qRaceChip {c : Cursor} {q : Pos} (hc : s.cs = some c) (hq : c.trace.nextEdge c.pos = some q)
      (hb : q < s.producer.buffered) :
      s.Completes .phQRace { s.commit s.wLatch s.sLatch (q - 1#64) with phase := .qDeassert }
  | qDeassert {c : Cursor} {q : Pos} (hc : s.cs = some c) (hq : c.trace.nextEdge c.pos = some q)
      (hb : q < s.producer.buffered) :
      s.Completes .phQDeassert { s with
        cs := some { c with pos := q }, out := s.out ++ [.progress q], progress := q, phase := .qReassert }
  | qReassert {c : Cursor} {f : Pos} (hc : s.cs = some c) (hf : c.trace.nextEdge c.pos = some f)
      (hb : f < s.producer.buffered) (hle : s.clk.pos ≤ f) :
      s.Completes .phQReassert { s with
        cs := some { c with pos := f }, clk := { s.clk with pos := f }, out := s.out ++ [.progress f], progress := f
        seq := 0#64, newAssert := true, lastWKnown := false, phase := .qAlign }
  | dHeadProbe (hv : s.pendValid = true) : s.Completes .phDHead { s with estLatch := s.estimateWidth, phase := .dProbe }
  | dHeadAdvance (h : s.pendValid = true → s.clk.moreBuffered s.producer = true) :
      s.Completes .phDHead { s with phase := .dAdvance }
  | realEdge {i : Instr} {e : Pos} (hi : i = .phDAdvance ∨ i = .phDProbe)
      (he : s.clk.trace.nextEdge s.clk.pos = some e) (hb : e < s.producer.buffered) (hl : linesBefore s.data e = true) :
      s.Completes i (({ s with clk := { s.clk with pos := e } } : State).reopenedAt e (s.clk.trace.level e))
  | dProbeEmpty (hf : s.clk.pos.toNat + s.estLatch.toNat < 2 ^ 64) :
      s.Completes .phDProbe { s.commit s.pendVal s.pendStart (s.clk.pos + s.estLatch - 1#64) with
        clk := { s.clk with pos := s.clk.pos + s.estLatch }, pendValid := false, phase := .dHead }
  | final {i : Instr} (hi : i = .phDone ∨ i = .phCancelled ∨ i = .phStopped) : s.Completes i s
  | opSampleWord {p : Pos} (hl : linesBefore s.data p = true) :
      s.Completes (.opSampleWord p) { s with
        data := linesAt s.data p, out := s.out ++ dots s.data.length p, ret := (wordAt s.data p).setWidth 64 }
  | opEstimateWidth : s.Completes .opEstimateWidth { s with ret := s.estimateWidth }
  | opCommit {v : Word} {p q : Pos} : s.Completes (.opCommit v p q) (s.commit v p q)
  | opReportProgress {p : Pos} :
      s.Completes (.opReportProgress p) { s with out := s.out ++ [.progress p], progress := p }
  | opMarkArrow {p : Pos} {l : Level} : s.Completes (.opMarkArrow p l) (s.markArrow p l)
  | opCloseAndOpen {e : Pos} (hl : linesBefore s.data e = true) :
      s.Completes (.opCloseAndOpen e) (s.reopenedAt e (s.clk.trace.level e))

section
variable {s t : State}

theorem State.seekActive_cases (h : s.seekActive = .ok t) : ∃ a e, cfgAct s.cfg = some a ∧
    s.clk.seekActive s.producer a = .ok { s.clk with pos := e } ∧ t = { s with clk := { s.clk with pos := e } } := by
  simp only [State.seekActive, Res.bind_eq_ok] at h
  obtain ⟨a, ha, c, hc, h⟩ := h
  obtain ⟨e, -, -, rfl⟩ := Cursor.seekActive_moved hc
  cases h
  exact ⟨a, e, State.act_eq_ok.mp ha, hc, rfl⟩

theorem State.eEdge_cases (h : s.eEdge = .ok t) : s.Completes .phEEdge t := by
  obtain ⟨a, ha, h⟩ := Res.bind_eq_ok.mp h
  obtain ⟨⟨u, w⟩, hu, h⟩ := Res.bind_eq_ok.mp h
  have hl := State.sampleWord_before hu
  have ha := State.act_eq_ok.mp ha
  obtain rfl := State.sampleWord_word hu
  obtain rfl := State.sampleWord_state hu
  dsimp only at h
  split at h
  · exact .eEdgeReal ha hl (State.finishReal_cases h)
  · cases h
    exact .eEdgeLast ha hl

theorem State.eProbe_cases (h : s.eProbe = .ok t) : s.Completes .phEProbe t := by
  obtain ⟨q, hq, h⟩ := Res.bind_eq_ok.mp h
  obtain ⟨crosses, hcross, h⟩ := Res.bind_eq_ok.mp h
  cases crosses with
  | true => exact .eProbeReal (State.finishReal_cases h)
  | false =>
    cases h
    exact .eProbeEmpty hq hcross

theorem State.syncClock_cases {c : Cursor} (h : s.syncClock c = .ok t) :
    s.clk.pos ≤ c.pos ∧ t = { s with cs := some c, clk := { s.clk with pos := c.pos } } := by
  obtain ⟨d, hd, h⟩ := Res.bind_eq_ok.mp h
  obtain ⟨hle, -, rfl⟩ := Cursor.advanceToAbsolute_eq_ok.mp hd
  cases h
  exact ⟨hle, rfl⟩

theorem State.qInit_cases (h : s.qInit = .ok t) : s.Completes .phQInit t := by
  simp only [State.qInit, Res.bind_eq_ok] at h
  obtain ⟨c, hc, l, hl, u, hu, h⟩ := h
  have hc := State.csCursor_eq_ok.mp hc
  obtain ⟨-, rfl⟩ := Cursor.currentLevel_eq_ok.mp hl
  cases h
  split at hu
  · next hlevel =>
    obtain ⟨d, hd, hu⟩ := Res.bind_eq_ok.mp hu
    obtain ⟨f, hf, hb, rfl⟩ := Cursor.advanceToNextEdge_eq_ok.mp hd
    obtain ⟨hle, rfl⟩ := State.syncClock_cases hu
    exact .qInitHigh hc hlevel hf hb hle
  · next hlevel =>
    cases hu
    exact .qInitLow hc (by simpa using hlevel)

theorem State.toActiveEdge_cases {p : Pos} (h : s.toActiveEdge (some p) = .ok t) :
    s.clk.pos ≤ p ∧ t = { s with clk := { s.clk with pos := p }, phase := .qEdge } := by
  obtain ⟨d, hd, h⟩ := Res.bind_eq_ok.mp h
  obtain ⟨hle, -, rfl⟩ := Cursor.advanceToAbsolute_eq_ok.mp hd
  cases h
  exact ⟨hle, rfl⟩

theorem State.qAlign_cases (h : s.qAlign = .ok t) : s.Completes .phQAlign t := by
  simp only [State.qAlign, Res.bind_eq_ok] at h
  obtain ⟨a, ha, c, hc, clockWins, hr, h⟩ := h
  have hc := State.csCursor_eq_ok.mp hc
  cases clockWins with
  | true =>
    obtain ⟨p, hp, hb, hq⟩ := Producer.race_clock hr
    rw [hp, if_pos rfl] at h
    obtain ⟨-, rfl⟩ := State.toActiveEdge_cases h
    exact .qAlignClock (State.act_eq_ok.mp ha) hc hp hb hq
  | false =>
    obtain ⟨q, hq, hb, -⟩ := Producer.race_chipSelect hr
    cases h
    exact .qAlignChip hc hq hb

theorem State.qEdge_cases (h : s.qEdge = .ok t) : s.Completes .phQEdge t := by
  obtain ⟨a, ha, h⟩ := Res.bind_eq_ok.mp h
  obtain ⟨⟨u, w⟩, hu, h⟩ := Res.bind_eq_ok.mp h
  obtain rfl := State.sampleWord_word hu
  obtain rfl := State.sampleWord_state hu
  cases h
  exact .qEdge (State.act_eq_ok.mp ha) (State.sampleWord_before hu)

theorem State.qRace_cases (h : s.qRace = .ok t) : s.Completes .phQRace t := by
  simp only [State.qRace, Res.bind_eq_ok] at h
  obtain ⟨a, ha, c, hc, clockWins, hr, h⟩ := h
  have hc := State.csCursor_eq_ok.mp hc
  cases clockWins with
  | true =>
    obtain ⟨p, hp, hb, hq⟩ := Producer.race_clock hr
    rw [hp, if_pos rfl] at h
    obtain ⟨hle, rfl⟩ := State.toActiveEdge_cases h
    rw [State.commit_clk] at hle ⊢
    exact .qRaceClock (State.act_eq_ok.mp ha) hc hp hb hq hle
  | false =>
    obtain ⟨q, hq, hb, -⟩ := Producer.race_chipSelect hr
    rw [hq] at h
    cases h
    exact .qRaceChip hc hq hb

theorem State.qDeassert_cases (h : s.qDeassert = .ok t) : s.Completes .phQDeassert t := by
  simp only [State.qDeassert, Res.bind_eq_ok] at h
  obtain ⟨c, hc, d, hd, h⟩ := h
  obtain ⟨q, hq, hb, rfl⟩ := Cursor.advanceToNextEdge_eq_ok.mp hd
  cases h
  exact .qDeassert (State.csCursor_eq_ok.mp hc) hq hb

theorem State.qReassert_cases (h : s.qReassert = .ok t) : s.Completes .phQReassert t := by
  simp only [State.qReassert, Res.bind_eq_ok] at h
  obtain ⟨c, hc, d, hd, u, hu, h⟩ := h
  obtain ⟨f, hf, hb, rfl⟩ := Cursor.advanceToNextEdge_eq_ok.mp hd
  obtain ⟨hle, rfl⟩ := State.syncClock_cases hu
  cases h
  exact .qReassert (State.csCursor_eq_ok.mp hc) hf hb hle

theorem State.dHead_cases (s : State) : s.Completes .phDHead s.dHead := by
  unfold State.dHead
  split
  · next h =>
    simp only [Bool.and_eq_true] at h
    exact .dHeadProbe h.1
  · next h =>
    simp only [Bool.and_eq_true, Bool.not_eq_true', not_and, Bool.not_eq_false] at h
    exact .dHeadAdvance h

theorem State.closeAndOpen_cases {e : Pos} (h : s.closeAndOpen e = .ok t) :
    linesBefore s.data e = true ∧ t = s.reopenedAt e (s.clk.trace.level e) := by
  obtain ⟨hdata, -⟩ := s.closePending_reads e
  obtain ⟨⟨u, w⟩, hu, h⟩ := Res.bind_eq_ok.mp h
  obtain ⟨l, hlevel, h⟩ := Res.bind_eq_ok.mp h
  obtain ⟨-, rfl⟩ := Cursor.currentLevel_eq_ok.mp hlevel
  have hl := State.sampleWord_before hu
  obtain rfl := State.sampleWord_word hu
  obtain rfl := State.sampleWord_state hu
  rw [hdata] at hl h
  cases h
  exact ⟨hl, rfl⟩

theorem State.toRealEdge_cases {i : Instr} (hi : i = .phDAdvance ∨ i = .phDProbe) (h : s.toRealEdge = .ok t) :
    s.Completes i t := by
  obtain ⟨c, hc, h⟩ := Res.bind_eq_ok.mp h
  obtain ⟨e, he, hb, rfl⟩ := Cursor.advanceToNextEdge_eq_ok.mp hc
  obtain ⟨hl, rfl⟩ := State.closeAndOpen_cases h
  exact .realEdge hi he hb hl

theorem State.dProbe_cases (h : s.dProbe = .ok t) : s.Completes .phDProbe t := by
  obtain ⟨crosses, hcross, h⟩ := Res.bind_eq_ok.mp h
  cases crosses with
  | true => exact State.toRealEdge_cases (.inr rfl) h
  | false =>
    obtain ⟨hf, hb, hno⟩ := Cursor.wouldCross_eq_ok.mp hcross
    have hprov := State.dProbe_provisional (s := s) hf (by rw [BitVec.lt_def, window_toNat hf] at hb; exact hb.symm)
      (fun i hi => by
        rw [hi] at hno
        have hlt : s.clk.pos + s.estLatch < i := by simpa using hno.symm
        rwa [BitVec.lt_def, window_toNat hf] at hlt)
    have hsame : s.dProbe = .ok t := by rw [State.dProbe, hcross]; exact h
    rw [hprov] at hsame
    cases hsame
    exact .dProbeEmpty hf

/-- Every operation that completes does one of these. -/
theorem State.opRes_cases {i : Instr} (h : s.opRes i = .ok t) : s.Completes i t := by
  cases i with
  | cfgEdgeRise | cfgEdgeFall | cfgDualEdge | cfgReservedMode3 | cfgCsRise | cfgCsFall | cfgReservedCsDual
  | cfgReservedCsMode3 | cfgReservedBits _ _ => cases h; exact .start (.inl rfl)
  | phIdleStart => cases h; exact .start (.inr ⟨rfl, rfl⟩)
  | phESeek =>
    obtain ⟨u, hu, h⟩ := Res.bind_eq_ok.mp h
    obtain ⟨a, e, ha, hseek, rfl⟩ := State.seekActive_cases hu
    cases h
    exact .eSeek ha hseek
  | phEEdge => exact State.eEdge_cases h
  | phEProbe => exact State.eProbe_cases h
  | phQInit => exact State.qInit_cases h
  | phQAlign => exact State.qAlign_cases h
  | phQEdge => exact State.qEdge_cases h
  | phQRace => exact State.qRace_cases h
  | phQDeassert => exact State.qDeassert_cases h
  | phQReassert => exact State.qReassert_cases h
  | phDHead => cases h; exact s.dHead_cases
  | phDAdvance => exact State.toRealEdge_cases (.inl rfl) h
  | phDProbe => exact State.dProbe_cases h
  | phDone | phCancelled | phStopped => cases h; exact .final (by simp)
  | opSampleWord p =>
    obtain ⟨⟨u, w⟩, hu, h⟩ := Res.bind_eq_ok.mp h
    obtain rfl := State.sampleWord_word hu
    obtain rfl := State.sampleWord_state hu
    cases h
    exact .opSampleWord (State.sampleWord_before hu)
  | opEstimateWidth => cases h; exact .opEstimateWidth
  | opCommit v p q => cases h; exact .opCommit
  | opReportProgress p => cases h; exact .opReportProgress
  | opMarkArrow p l => cases h; exact .opMarkArrow
  | opFinishReal w p => exact .opFinishReal (State.finishReal_cases h)
  | opCloseAndOpen e =>
    obtain ⟨hl, rfl⟩ := State.closeAndOpen_cases h
    exact .opCloseAndOpen hl
  | opSeekActive =>
    obtain ⟨a, e, ha, hseek, rfl⟩ := State.seekActive_cases h
    exact .seekActive ha hseek

end

/-! ## How an operation can end otherwise -/

/-- The result is no stop but one of the two run faults (60_exceptions R200). -/
def Res.RunFault {α : Type} (r : Res α) : Prop := ∀ c, r = .raise c → c = .nonmonotonic ∨ c = .posOverflow

section
variable {α β : Type}

@[simp] theorem Res.runFault_ok (a : α) : (Res.ok a).RunFault := by simp [Res.RunFault]
@[simp] theorem Res.runFault_hold : (Res.hold : Res α).RunFault := by simp [Res.RunFault]
@[simp] theorem Res.runFault_done : (Res.done : Res α).RunFault := by simp [Res.RunFault]
@[simp] theorem Res.runFault_stuck (f : Fault) : (Res.stuck f : Res α).RunFault := by simp [Res.RunFault]
@[simp] theorem Res.runFault_nonmonotonic : (Res.raise .nonmonotonic : Res α).RunFault := by simp [Res.RunFault]
@[simp] theorem Res.runFault_posOverflow : (Res.raise .posOverflow : Res α).RunFault := by simp [Res.RunFault]

theorem Res.RunFault.bind {r : Res α} {k : α → Res β} (hr : r.RunFault) (hk : ∀ a, (k a).RunFault) :
    (r.bind k).RunFault := by
  cases r with
  | ok a => exact hk a
  | raise c => exact fun d hd => hr d (by cases hd; rfl)
  | _ => simp

theorem Res.RunFault.ite {p : Prop} [Decidable p] {r r' : Res α} (h : r.RunFault) (h' : r'.RunFault) :
    (if p then r else r').RunFault := by
  split
  · exact h
  · exact h'

end

theorem Cursor.currentLevel_runFault (pr : Producer) (c : Cursor) : (c.currentLevel pr).RunFault := by
  unfold Cursor.currentLevel
  split_ifs <;> simp

theorem Cursor.advanceToNextEdge_runFault (pr : Producer) (c : Cursor) : (c.advanceToNextEdge pr).RunFault := by
  unfold Cursor.advanceToNextEdge
  cases c.trace.nextEdge c.pos <;> dsimp only <;> split_ifs <;> simp

theorem Cursor.advanceToAbsolute_runFault (pr : Producer) (c : Cursor) (p : Pos) : (c.advanceToAbsolute pr p).RunFault := by
  unfold Cursor.advanceToAbsolute
  split_ifs <;> simp

theorem Cursor.wouldCross_runFault (pr : Producer) (c : Cursor) (n : Pos) : (c.wouldCross pr n).RunFault := by
  unfold Cursor.wouldCross
  split_ifs <;> simp

theorem Producer.race_runFault (pr : Producer) (a c : Option Pos) : (pr.race a c).RunFault := by
  unfold Producer.race
  split_ifs <;> simp

section
variable (s : State)

theorem State.act_runFault : s.act.RunFault := by
  unfold State.act
  cases cfgAct s.cfg <;> simp

theorem State.csCursor_runFault : s.csCursor.RunFault := by
  unfold State.csCursor
  cases s.cs <;> simp

theorem sampleLines_runFault (pr : Producer) (p : Pos) (ls : List Line) : (sampleLines pr p ls).RunFault := by
  induction ls with
  | nil => exact Res.runFault_ok _
  | cons l ls ih =>
    exact (l.cursor.advanceToAbsolute_runFault pr p).bind fun c => (c.currentLevel_runFault pr).bind fun _ =>
      ih.bind fun _ => Res.runFault_ok _

theorem State.sampleWord_runFault (p : Pos) : (s.sampleWord p).RunFault :=
  .ite Res.runFault_nonmonotonic ((sampleLines_runFault _ _ _).bind fun _ => Res.runFault_ok _)

theorem State.seekActive_runFault : s.seekActive.RunFault :=
  s.act_runFault.bind fun _ =>
    ((Cursor.currentLevel_runFault _ _).bind fun _ =>
      .ite ((Cursor.advanceToNextEdge_runFault _ _).bind fun _ => Cursor.advanceToNextEdge_runFault _ _)
        (Cursor.advanceToNextEdge_runFault _ _)).bind fun _ => Res.runFault_ok _

theorem State.finishReal_runFault (w : Word) (p : Pos) : (s.finishReal w p).RunFault :=
  (Cursor.advanceToNextEdge_runFault _ _).bind fun _ =>
    .ite ((Cursor.advanceToNextEdge_runFault _ _).bind fun _ => Res.runFault_ok _) (Res.runFault_ok _)

theorem State.provisionalEnd_runFault (p e : Pos) : (s.provisionalEnd p e).RunFault :=
  .ite Res.runFault_posOverflow (Res.runFault_ok _)

theorem State.syncClock_runFault (c : Cursor) : (s.syncClock c).RunFault :=
  (Cursor.advanceToAbsolute_runFault _ _ _).bind fun _ => Res.runFault_ok _

theorem State.toActiveEdge_runFault (a : Option Pos) : (s.toActiveEdge a).RunFault := by
  cases a with
  | none => exact Res.runFault_ok _
  | some p => exact (Cursor.advanceToAbsolute_runFault _ _ _).bind fun _ => Res.runFault_ok _

theorem State.closeAndOpen_runFault (e : Pos) : (s.closeAndOpen e).RunFault :=
  (State.sampleWord_runFault _ _).bind fun _ => (Cursor.currentLevel_runFault _ _).bind fun _ => Res.runFault_ok _

theorem State.toRealEdge_runFault : s.toRealEdge.RunFault :=
  (Cursor.advanceToNextEdge_runFault _ _).bind fun _ => State.closeAndOpen_runFault _ _

/-- The two run faults are the only stops of an operation that is no start step (60_exceptions R200, R205). -/
theorem State.opRes_runFault (i : Instr) : (s.opRes i).RunFault := by
  cases i with
  | phESeek => exact s.seekActive_runFault.bind fun _ => Res.runFault_ok _
  | phEEdge =>
    exact s.act_runFault.bind fun _ => (s.sampleWord_runFault _).bind fun _ =>
      .ite (State.finishReal_runFault _ _ _) (Res.runFault_ok _)
  | phEProbe =>
    exact (s.provisionalEnd_runFault _ _).bind fun _ => (Cursor.wouldCross_runFault _ _ _).bind fun _ =>
      .ite (s.finishReal_runFault _ _) (Res.runFault_ok _)
  | phQInit =>
    exact s.csCursor_runFault.bind fun _ => (Cursor.currentLevel_runFault _ _).bind fun _ =>
      (Res.RunFault.ite ((Cursor.advanceToNextEdge_runFault _ _).bind fun _ => s.syncClock_runFault _)
        (Res.runFault_ok _)).bind fun _ => Res.runFault_ok _
  | phQAlign =>
    exact s.act_runFault.bind fun _ => s.csCursor_runFault.bind fun _ => (Producer.race_runFault _ _ _).bind fun _ =>
      .ite (s.toActiveEdge_runFault _) (Res.runFault_ok _)
  | phQEdge => exact s.act_runFault.bind fun _ => (s.sampleWord_runFault _).bind fun _ => Res.runFault_ok _
  | phQRace =>
    exact s.act_runFault.bind fun _ => s.csCursor_runFault.bind fun _ => (Producer.race_runFault _ _ _).bind fun _ =>
      .ite (State.toActiveEdge_runFault _ _) (Res.runFault_ok _)
  | phQDeassert =>
    exact s.csCursor_runFault.bind fun _ => (Cursor.advanceToNextEdge_runFault _ _).bind fun _ => Res.runFault_ok _
  | phQReassert =>
    exact s.csCursor_runFault.bind fun _ => (Cursor.advanceToNextEdge_runFault _ _).bind fun _ =>
      (s.syncClock_runFault _).bind fun _ => Res.runFault_ok _
  | phDAdvance => exact s.toRealEdge_runFault
  | phDProbe =>
    exact (Cursor.wouldCross_runFault _ _ _).bind fun _ => .ite s.toRealEdge_runFault
      ((Cursor.advanceToAbsolute_runFault _ _ _).bind fun _ => Res.runFault_ok _)
  | opSampleWord p => exact (s.sampleWord_runFault p).bind fun _ => Res.runFault_ok _
  | opFinishReal w p => exact s.finishReal_runFault w p
  | opCloseAndOpen e => exact s.closeAndOpen_runFault e
  | opSeekActive => exact s.seekActive_runFault
  | _ => exact Res.runFault_ok _

end

/-- Every way an operation answers a next state: it completes, holds, ends the run, or stops it with one of
the two run faults (60_exceptions R205 to R207). -/
theorem exec_cases {i : Instr} {s t : State} (h : exec i s = .next t) :
    s.Completes i t ∨ t = s ∨ t = { s with phase := .done } ∨
      ∃ c : Cause, (c = .nonmonotonic ∨ c = .posOverflow) ∧ t = { s with phase := .stopped, cause := c.code } := by
  rw [exec_eq_settle] at h
  rcases Res.settle_eq_next h with hr | ⟨-, rfl⟩ | ⟨-, rfl⟩ | ⟨c, hr, rfl⟩
  · exact .inl (State.opRes_cases hr)
  · exact .inr (.inl rfl)
  · exact .inr (.inr (.inl rfl))
  · exact .inr (.inr (.inr ⟨c, s.opRes_runFault i c hr, rfl⟩))

end Sys2Proof.Machine
end

section
/-! SUPPORT. Frames: what no operation writes, which operations write which register, that stops are precise
and that cursors move forward (10_state, 20_memory, 60_exceptions R205 and R206, 70_reset_and_hazards R225). -/

namespace Sys2Proof.Machine

/-! ## What no operation but a start step writes -/

/-- The operations that are a start step: the rows of the variant table and `PH_IDLE_START`. -/
def starts (i : Instr) : Prop := encode i = some (.phase 0#4) ∨ ∃ w, encode i = some (.cfg w)

/-- A start step is the start on some word (log 12). -/
theorem exec_of_starts {i : Instr} (h : starts i) (s : State) :
    ∃ w, (encode i = some (.cfg w) ∨ i = .phIdleStart) ∧ exec i s = .next (s.start w) := by
  rcases h with h | ⟨w, h⟩
  · have hi : i = .phIdleStart := by cases i <;> simp [encode] at h ⊢
    exact ⟨s.inputs.cfg, .inr hi, by rw [hi]; rfl⟩
  · exact ⟨w, .inl h, exec_of_cfg_code h s⟩

/-- From `s` to `t` the parameters, the environment, the configuration and every trace and mask stay. -/
structure State.KeepsRun (s t : State) : Prop where
  config : t.config = s.config
  inputs : t.inputs = s.inputs
  producer : t.producer = s.producer
  sink : t.sink = s.sink
  schedule : t.schedule = s.schedule
  cfg : t.cfg = s.cfg
  clk : t.clk.trace = s.clk.trace
  cs : t.cs.map (fun c => c.trace) = s.cs.map (fun c => c.trace)
  lines : t.data.map (fun l => (l.cursor.trace, l.mask)) = s.data.map (fun l => (l.cursor.trace, l.mask))

namespace State.KeepsRun
variable {s t : State}

theorem refl (s : State) : s.KeepsRun s := ⟨rfl, rfl, rfl, rfl, rfl, rfl, rfl, rfl, rfl⟩

theorem traces (h : s.KeepsRun t) : t.traces = s.traces := by
  have hl := congrArg (List.map Prod.fst) h.lines
  have hcs := congrArg Option.toList h.cs
  simp only [List.map_map, Function.comp_def] at hl
  simp only [Option.toList_map] at hcs
  simp only [State.traces, h.clk, hl, hcs]

theorem masks (h : s.KeepsRun t) : t.data.map (fun l => l.mask) = s.data.map (fun l => l.mask) := by
  simpa only [List.map_map, Function.comp_def] using congrArg (List.map Prod.snd) h.lines

theorem length (h : s.KeepsRun t) : t.data.length = s.data.length := by
  simpa using congrArg List.length h.lines

theorem csIsSome (h : s.KeepsRun t) : t.cs.isSome = s.cs.isSome := by
  simpa using congrArg Option.isSome h.cs

end State.KeepsRun

theorem linesAt_reads (ls : List Line) (p : Pos) :
    (linesAt ls p).map (fun l => (l.cursor.trace, l.mask)) = ls.map fun l => (l.cursor.trace, l.mask) := by
  simp [linesAt]

/-- A pending frame is committed, or there is none. -/
theorem State.closePending_cases (s : State) (e : Pos) :
    s.pendValid = true ∧ s.closePending e = s.commit s.pendVal s.pendStart (e - 1#64) ∨
      s.pendValid = false ∧ s.closePending e = s := by
  unfold State.closePending
  cases h : s.pendValid <;> simp

theorem State.endFrameAt_keepsRun (s : State) (w : Word) (p e : Pos) (ph : Phase) :
    s.KeepsRun (s.endFrameAt w p e ph) := by
  constructor <;> simp [State.endFrameAt]

theorem State.RealEnd.keepsRun {s t : State} {w : Word} {p : Pos} (h : s.RealEnd w p t) : s.KeepsRun t := by
  cases h <;> exact s.endFrameAt_keepsRun _ _ _ _

theorem State.reopenedAt_keepsRun (s : State) (e : Pos) (l : Level) : s.KeepsRun (s.reopenedAt e l) := by
  rcases s.closePending_cases e with ⟨-, h⟩ | ⟨-, h⟩ <;> constructor <;> simp [State.reopenedAt, h, linesAt_reads]

/-- An operation that completes, other than a start step, keeps them (20_memory section 5, 10_state R22). -/
theorem State.Completes.keepsRun {s t : State} {i : Instr} (h : s.Completes i t) (hi : ¬ starts i) : s.KeepsRun t := by
  cases h with
  | start h =>
    rcases h with h | ⟨rfl, -⟩
    · exact absurd (.inr ⟨_, h⟩) hi
    · exact absurd (.inl rfl) hi
  | eEdgeReal ha hl hend =>
    obtain ⟨h1, h2, h3, h4, h5, h6, h7, h8, h9⟩ := hend.keepsRun
    exact ⟨h1, h2, h3, h4, h5, h6, h7, h8, h9.trans (linesAt_reads _ _)⟩
  | eProbeReal hend | opFinishReal hend => exact hend.keepsRun
  | realEdge hi he hb hl =>
    obtain ⟨h1, h2, h3, h4, h5, h6, h7, h8, h9⟩ :=
      State.reopenedAt_keepsRun { s with clk := { s.clk with pos := _ } } _ (s.clk.trace.level _)
    exact ⟨h1, h2, h3, h4, h5, h6, h7, h8, h9⟩
  | opCloseAndOpen hl => exact s.reopenedAt_keepsRun _ _
  | eEdgeLast | qEdge | opSampleWord => exact ⟨rfl, rfl, rfl, rfl, rfl, rfl, rfl, rfl, linesAt_reads _ _⟩
  | qInitHigh hc | qDeassert hc | qReassert hc => exact ⟨rfl, rfl, rfl, rfl, rfl, rfl, rfl, by rw [hc]; rfl, rfl⟩
  | eProbeEmpty | qRaceClock | qRaceChip | dProbeEmpty | opCommit => constructor <;> simp
  | seekActive | eSeek | qInitLow | qAlignClock | qAlignChip | dHeadProbe | dHeadAdvance | final | opEstimateWidth
  | opReportProgress | opMarkArrow => exact ⟨rfl, rfl, rfl, rfl, rfl, rfl, rfl, rfl, rfl⟩

/-- So does every next state such an operation answers: a hold, the normal end and a stop write `PHASE` and
`CAUSE` alone. -/
theorem exec_keepsRun {i : Instr} {s t : State} (hi : ¬ starts i) (h : exec i s = .next t) : s.KeepsRun t := by
  rcases exec_cases h with hc | rfl | rfl | ⟨c, -, rfl⟩
  · exact hc.keepsRun hi
  · exact .refl t
  · exact ⟨rfl, rfl, rfl, rfl, rfl, rfl, rfl, rfl, rfl⟩
  · exact ⟨rfl, rfl, rfl, rfl, rfl, rfl, rfl, rfl, rfl⟩

/-- The start step writes nothing of the environment. -/
theorem State.start_environment (s : State) (w : BitVec 32) :
    (s.start w).config = s.config ∧ (s.start w).inputs = s.inputs ∧ (s.start w).producer = s.producer ∧
      (s.start w).sink = s.sink ∧ (s.start w).schedule = s.schedule := by
  rcases s.start_cases w with ⟨c, -, h⟩ | ⟨-, h⟩ <;> rw [h] <;> exact ⟨rfl, rfl, rfl, rfl, rfl⟩

theorem State.start_traces (s : State) (w : BitVec 32) : (s.start w).traces = s.inputs.traces := by
  rcases s.start_cases w with ⟨c, -, h⟩ | ⟨-, h⟩ <;> rw [h] <;> exact s.latch_traces w

/-- Settles O40: a start step reads the presented traces, every other operation keeps those of the run. -/
theorem tracesAndEnvironmentReadOnly : Obligations.TracesAndEnvironmentReadOnly := by
  intro i s t h
  by_cases hi : starts i
  · obtain ⟨w, -, hw⟩ := exec_of_starts hi s
    rw [hw] at h
    cases h
    obtain ⟨hconfig, hinputs, hproducer, hsink, hschedule⟩ := s.start_environment w
    exact ⟨hconfig, hinputs, hproducer, hsink, hschedule, fun _ => s.start_traces w,
      fun hphase hcfg => absurd hi (not_or.mpr ⟨hphase, not_exists.mpr hcfg⟩)⟩
  · have hk := exec_keepsRun hi h
    exact ⟨hk.config, hk.inputs, hk.producer, hk.sink, hk.schedule, fun hs => absurd hs hi,
      fun _ _ => ⟨hk.traces, hk.cfg, hk.masks⟩⟩

/-- Settles O35: from an empty stream an operation appends what it appends from any other. -/
theorem outputOnlyAppended : Obligations.OutputOnlyAppended := by
  intro i s
  have h : exec i s = mapNext (State.prependOut s.out) (exec i s.clearOut) := by
    rw [← exec_prependOut, s.clearOut_prependOut]
  change match exec i s.clearOut with
    | .next t => exec i s = .next { t with out := s.out ++ t.out }
    | .fault f => exec i s = .fault f
    | .refused r => exec i s = .refused r
  rw [h]
  cases exec i s.clearOut <;> rfl

/-! ## Which operations write which registers -/

section
variable {s t : State} {i : Instr}

/-- A frame's end writes no register of its own but the clock cursor and `PHASE`. -/
theorem State.RealEnd.registers {w : Word} {p : Pos} (h : s.RealEnd w p t) :
    t.sLatch = s.sLatch ∧ t.wLatch = s.wLatch ∧ t.estLatch = s.estLatch ∧ t.pendVal = s.pendVal ∧
      t.pendStart = s.pendStart ∧ t.pendValid = s.pendValid ∧ t.ret = s.ret ∧ t.cause = s.cause := by
  cases h <;> simp [State.endFrameAt]

theorem State.reopenedAt_registers (s : State) (e : Pos) (l : Level) :
    (s.reopenedAt e l).sLatch = s.sLatch ∧ (s.reopenedAt e l).wLatch = s.wLatch ∧
      (s.reopenedAt e l).estLatch = s.estLatch ∧ (s.reopenedAt e l).ret = s.ret ∧ (s.reopenedAt e l).cause = s.cause := by
  rcases s.closePending_cases e with ⟨-, h⟩ | ⟨-, h⟩ <;> simp [State.reopenedAt, h]

/-- Without chip-select gating a commit does not count (41_frame_emitter R111). -/
theorem State.RealEnd.sequence {w : Word} {p : Pos} (h : s.RealEnd w p t) (hc : cfgCsEn s.cfg = false) :
    t.seq = s.seq ∧ t.newAssert = s.newAssert := by
  cases h <;> simp [State.endFrameAt, hc]

theorem State.reopenedAt_sequence {s : State} (e : Pos) (l : Level) (hc : cfgCsEn s.cfg = false) :
    (s.reopenedAt e l).seq = s.seq ∧ (s.reopenedAt e l).newAssert = s.newAssert := by
  rcases s.closePending_cases e with ⟨-, h⟩ | ⟨-, h⟩ <;> simp [State.reopenedAt, h, hc]

/-- Everything the start step can write beside the latch, `PHASE` and a stop's cause is `PEND_VALID`. -/
theorem State.start_registers (s : State) (w : BitVec 32) :
    (s.start w).seq = s.seq ∧ (s.start w).newAssert = s.newAssert ∧ (s.start w).lastW = s.lastW ∧
      (s.start w).lastWKnown = s.lastWKnown ∧ (s.start w).progress = s.progress ∧ (s.start w).sLatch = s.sLatch ∧
      (s.start w).wLatch = s.wLatch ∧ (s.start w).estLatch = s.estLatch ∧ (s.start w).pendVal = s.pendVal ∧
      (s.start w).pendStart = s.pendStart ∧ (s.start w).ret = s.ret := by
  rcases s.start_cases w with ⟨c, -, h⟩ | ⟨-, h⟩ <;> rw [h] <;>
    exact ⟨rfl, rfl, rfl, rfl, rfl, rfl, rfl, rfl, rfl, rfl, rfl⟩

theorem State.Completes.sequence (h : s.Completes i t) (hi : i ∉ [.phQInit, .phQReassert])
    (hc : cfgCsEn s.cfg = false ∨ commits i = false) : t.seq = s.seq ∧ t.newAssert = s.newAssert := by
  cases h with
  | start => exact ⟨(s.start_registers _).1, (s.start_registers _).2.1⟩
  | eEdgeReal ha hl hend => exact hend.sequence (hc.resolve_right (by decide))
  | eProbeReal hend => exact hend.sequence (hc.resolve_right (by decide))
  | opFinishReal hend => exact hend.sequence (hc.resolve_right (by simp [commits]))
  | realEdge hi =>
    have hc : cfgCsEn s.cfg = false := hc.resolve_right (by rcases hi with rfl | rfl <;> decide)
    exact State.reopenedAt_sequence (s := { s with clk := _ }) _ _ hc
  | opCloseAndOpen => exact State.reopenedAt_sequence _ _ (hc.resolve_right (by simp [commits]))
  | eProbeEmpty | qRaceClock | qRaceChip | dProbeEmpty | opCommit => simp_all [commits]
  | qInitLow | qInitHigh | qReassert => simp at hi
  | _ => exact ⟨rfl, rfl⟩

/-- The width and `PROGRESS` are written by a commit, and by the operations that forget or report. -/
theorem State.Completes.width (h : s.Completes i t) (hc : commits i = false) :
    t.lastW = s.lastW ∧ (i ≠ .phQReassert → t.lastWKnown = s.lastWKnown) ∧
      (i ∉ [.phQDeassert, .phQReassert] → (∀ p, i ≠ .opReportProgress p) → t.progress = s.progress) := by
  cases h with
  | start =>
    obtain ⟨-, -, hw, hk, hp, -⟩ := s.start_registers _
    exact ⟨hw, fun _ => hk, fun _ _ => hp⟩
  | realEdge hi => rcases hi with rfl | rfl <;> cases hc
  | qDeassert | qReassert | opReportProgress => simp
  | eEdgeReal | eEdgeLast | eProbeReal | eProbeEmpty | opFinishReal | qRaceClock | qRaceChip | dProbeEmpty | opCommit
  | opCloseAndOpen => cases hc
  | _ => exact ⟨rfl, fun _ => rfl, fun _ _ => rfl⟩

theorem State.Completes.frameLatch (h : s.Completes i t) (hi : i ∉ [.phEEdge, .phQEdge]) :
    t.sLatch = s.sLatch ∧ t.wLatch = s.wLatch := by
  cases h with
  | start =>
    obtain ⟨-, -, -, -, -, hs, hw, -⟩ := s.start_registers _
    exact ⟨hs, hw⟩
  | eEdgeReal | eEdgeLast | qEdge => simp at hi
  | eProbeReal hend | opFinishReal hend => exact ⟨hend.registers.1, hend.registers.2.1⟩
  | realEdge =>
    obtain ⟨hs, hw, -⟩ := State.reopenedAt_registers { s with clk := { s.clk with pos := _ } } _ (s.clk.trace.level _)
    exact ⟨hs, hw⟩
  | opCloseAndOpen =>
    obtain ⟨hs, hw, -⟩ := s.reopenedAt_registers _ (s.clk.trace.level _)
    exact ⟨hs, hw⟩
  | _ => simp [State.markArrow]

theorem State.Completes.estLatch (h : s.Completes i t) (hi : i ∉ [.phEEdge, .phDHead]) : t.estLatch = s.estLatch := by
  cases h with
  | start =>
    obtain ⟨-, -, -, -, -, -, -, he, -⟩ := s.start_registers _
    exact he
  | eEdgeReal | eEdgeLast | dHeadProbe => simp at hi
  | eProbeReal hend | opFinishReal hend => exact hend.registers.2.2.1
  | realEdge =>
    exact (State.reopenedAt_registers { s with clk := { s.clk with pos := _ } } _ (s.clk.trace.level _)).2.2.1
  | opCloseAndOpen => exact (s.reopenedAt_registers _ (s.clk.trace.level _)).2.2.1
  | _ => simp [State.markArrow, State.sampledAtClk]

/-- An accepted word enters `D_HEAD` exactly when it is the dual-edge word (30_encoding R81). -/
theorem cfgFirstPhase_dHead {c : Config} {w : BitVec 32} {i : Inputs} (h : startCheck c w i = none) :
    cfgFirstPhase w = .dHead ↔ w = 2#32 := by
  have h8 : w.toNat / 8 = 0 := by
    by_contra hn
    rw [startCheck_eq_toNat, if_pos hn] at h
    cases h
  rw [cfgFirstPhase_eq_toNat h8, ← BitVec.toNat_inj, BitVec.toNat_ofNat]
  split_ifs <;> simp_all

theorem State.Completes.pending (h : s.Completes i t) (hi : i ∉ [.phDAdvance, .phDProbe])
    (hc : ∀ e, i ≠ .opCloseAndOpen e) :
    t.pendVal = s.pendVal ∧ t.pendStart = s.pendStart ∧
      (encode i ≠ some (.cfg 2#32) → i ≠ .phIdleStart → t.pendValid = s.pendValid) := by
  cases h with
  | start hw =>
    obtain ⟨-, -, -, -, -, -, -, -, hv, hp, -⟩ := s.start_registers _
    refine ⟨hv, hp, fun hne hidle => ?_⟩
    rcases s.start_cases _ with ⟨c, -, h⟩ | ⟨hcheck, h⟩
    · rw [h]
      rfl
    · rw [h]
      refine if_neg fun hd => ?_
      rw [(cfgFirstPhase_dHead hcheck).mp hd] at hw
      exact hw.elim hne fun hw => hidle hw.1
  | eEdgeReal ha hl hend =>
    obtain ⟨-, -, -, hv, hp, hpv, -⟩ := hend.registers
    exact ⟨hv, hp, fun _ _ => hpv⟩
  | eProbeReal hend | opFinishReal hend =>
    obtain ⟨-, -, -, hv, hp, hpv, -⟩ := hend.registers
    exact ⟨hv, hp, fun _ _ => hpv⟩
  | realEdge hr => rcases hr with rfl | rfl <;> simp at hi
  | opCloseAndOpen => exact absurd rfl (hc _)
  | dProbeEmpty => simp at hi
  | _ => simp [State.markArrow, State.sampledAtClk]

theorem State.Completes.returned (h : s.Completes i t) (he : i ≠ .opEstimateWidth) (hs : ∀ p, i ≠ .opSampleWord p) :
    t.ret = s.ret := by
  cases h with
  | start =>
    obtain ⟨-, -, -, -, -, -, -, -, -, -, hr⟩ := s.start_registers _
    exact hr
  | eEdgeReal ha hl hend =>
    obtain ⟨-, -, -, -, -, -, hr, -⟩ := hend.registers
    exact hr
  | eProbeReal hend | opFinishReal hend =>
    obtain ⟨-, -, -, -, -, -, hr, -⟩ := hend.registers
    exact hr
  | realEdge =>
    obtain ⟨-, -, -, hr, -⟩ :=
      State.reopenedAt_registers { s with clk := { s.clk with pos := _ } } _ (s.clk.trace.level _)
    exact hr
  | opCloseAndOpen =>
    obtain ⟨-, -, -, hr, -⟩ := s.reopenedAt_registers _ (s.clk.trace.level _)
    exact hr
  | opEstimateWidth => exact absurd rfl he
  | opSampleWord => exact absurd rfl (hs _)
  | _ => simp [State.markArrow, State.sampledAtClk]

/-- An operation that completes writes no cause, but for the start step that stops. -/
theorem State.Completes.cause (h : s.Completes i t) (hp : t.phase ≠ .stopped) : t.cause = s.cause := by
  cases h with
  | start =>
    rcases s.start_cases _ with ⟨c, -, h⟩ | ⟨-, h⟩ <;> rw [h] at hp ⊢
    · exact absurd rfl hp
    · rfl
  | eEdgeReal ha hl hend =>
    obtain ⟨-, -, -, -, -, -, -, hc⟩ := hend.registers
    exact hc
  | eProbeReal hend | opFinishReal hend =>
    obtain ⟨-, -, -, -, -, -, -, hc⟩ := hend.registers
    exact hc
  | realEdge =>
    obtain ⟨-, -, -, -, hc⟩ :=
      State.reopenedAt_registers { s with clk := { s.clk with pos := _ } } _ (s.clk.trace.level _)
    exact hc
  | opCloseAndOpen =>
    obtain ⟨-, -, -, -, hc⟩ := s.reopenedAt_registers _ (s.clk.trace.level _)
    exact hc
  | _ => simp [State.markArrow, State.sampledAtClk]

end

/-- Settles O41: each clause where the operation completes; a hold, the normal end and a stop write only
`PHASE` and, in a stop, `CAUSE`. -/
theorem registerWriters : Obligations.RegisterWriters := by
  intro i s t h
  rcases exec_cases h with hc | rfl | rfl | ⟨c, -, rfl⟩
  · exact ⟨hc.sequence, hc.width, hc.frameLatch, hc.estLatch, hc.pending, hc.returned, hc.cause⟩
  · simp
  · simp
  · simp

/-! ## Stops -/

/-- An operation that completes a run in progress leaves it in progress. -/
theorem State.Completes.phase_running {s t : State} {i : Instr} (h : s.Completes i t) (hi : ¬ starts i)
    (hf : s.phase.final = false) : t.phase.final = false := by
  cases h with
  | start h =>
    rcases h with h | ⟨rfl, -⟩
    · exact absurd (.inr ⟨_, h⟩) hi
    · exact absurd (.inl rfl) hi
  | eEdgeReal ha hl hend => cases hend <;> rfl
  | eProbeReal hend | opFinishReal hend => cases hend <;> rfl
  | final | opSampleWord | opEstimateWidth | opReportProgress | opMarkArrow | seekActive => exact hf
  | opCommit => rwa [State.commit_phase]
  | _ => rfl

/-- Settles O42: only the normal end and a run fault leave a run done or stopped. -/
theorem stopsArePrecise : Obligations.StopsArePrecise := by
  intro i s t hphase hcfg hf h
  have hi : ¬ starts i := not_or.mpr ⟨hphase, not_exists.mpr hcfg⟩
  have hrunning : t.phase.final = false →
      (t.phase = .stopped → ∃ c, c ∈ [0x10#8, 0x11#8] ∧ t = { s with phase := .stopped, cause := c }) ∧
        (t.phase = .done → t = { s with phase := .done }) := by
    intro ht
    constructor <;> intro hs <;> rw [hs] at ht <;> cases ht
  rcases exec_cases h with hc | rfl | rfl | ⟨c, hc, rfl⟩
  · exact hrunning (hc.phase_running hi hf)
  · exact hrunning hf
  · exact ⟨nofun, fun _ => rfl⟩
  · refine ⟨fun _ => ⟨c.code, ?_, rfl⟩, nofun⟩
    rcases hc with rfl | rfl <;> decide

/-! ## The edge-gated loop -/

theorem State.Completes.edge_phase {s t : State} {i : Instr} (h : s.Completes i t)
    (hi : i ∈ [.phESeek, .phEEdge, .phEProbe]) : t.phase ∈ [.eSeek, .eEdge, .eProbe] := by
  cases h with
  | eEdgeReal ha hl hend => cases hend <;> simp [State.endFrameAt]
  | eProbeReal hend => cases hend <;> simp [State.endFrameAt]
  | eSeek | eEdgeLast | eProbeEmpty => simp
  | start h => rcases h with h | ⟨rfl, -⟩ <;> simp at hi; rcases hi with rfl | rfl | rfl <;> cases h
  | realEdge h => rcases h with rfl | rfl <;> simp at hi
  | final h => rcases h with rfl | rfl | rfl <;> simp at hi
  | _ => simp at hi

theorem fetch_edge {s : State} (h : s.phase ∈ [.eSeek, .eEdge, .eProbe]) : fetch s ∈ [.phESeek, .phEEdge, .phEProbe] := by
  simp only [List.mem_cons, List.not_mem_nil, or_false] at h
  rcases h with h | h | h <;> rw [fetch, h] <;> decide

/-- Settles O18: the accepted start enters `E_SEEK`, and the three phases lead to one another. -/
theorem edgeGatedLoop : Obligations.EdgeGatedLoop := by
  constructor
  · intro s t i hi h hp
    have enters : ∀ w, cfgFirstPhase w = .eSeek → t = s.start w → t.phase = .eSeek ∧ t.clk.pos = 0#64 := by
      rintro w hw rfl
      rcases s.start_cases w with ⟨c, -, hs⟩ | ⟨-, hs⟩ <;> rw [hs] at hp ⊢
      · exact absurd rfl hp
      · exact ⟨hw, rfl⟩
    simp only [List.mem_cons, List.not_mem_nil, or_false] at hi
    rcases hi with rfl | rfl <;> cases h <;> exact enters _ (by decide) rfl
  · intro s t hs h
    have stays : t.phase ∈ [.eSeek, .eEdge, .eProbe] → t.phase ∈ [.eSeek, .eEdge, .eProbe, .done, .stopped] := by
      simp only [List.mem_cons, List.not_mem_nil, or_false]
      tauto
    rcases step_cases h with ⟨u, hu, hb⟩ | ⟨m, rest, hm, rfl⟩
    · have hup : u.phase = s.phase := by rcases hu with rfl | ⟨rest, -, rfl⟩ <;> rfl
      rcases exec_cases hb with hc | rfl | rfl | ⟨c, -, rfl⟩
      · exact .inl (stays (hc.edge_phase (fetch_edge (hup ▸ hs))))
      · exact .inl (stays (hup ▸ hs))
      · exact .inl (by simp)
      · exact .inl (by simp)
    · have hrun : (s.setSchedule rest).phase.final = false := by
        simp only [List.mem_cons, List.not_mem_nil, or_false] at hs
        rcases hs with hs | hs | hs <;> simp [hs, Phase.final]
      have hmoves := (s.setSchedule rest).hostMove_moves m
      generalize (s.setSchedule rest).hostMove m = t at hmoves stays ⊢
      cases hmoves with
      | cancel => exact .inr ⟨rfl, rest, hm⟩
      | newRun hfinal => rw [hrun] at hfinal; cases hfinal
      | append | endCapture | present | none => exact .inl (stays hs)

/-! ## What a run's traces and the producer keep -/

theorem fetch_not_starts {s : State} (h : s.phase ≠ .idle) : ¬ starts (fetch s) := by
  unfold fetch starts
  revert h
  cases s.phase <;> simp [Phase.code, decodePhase, encode]

/-- Past `IDLE` the block's turn keeps the run's configuration, traces and environment. -/
theorem blockStep_keepsRun {s t : State} (hp : s.phase ≠ .idle) (h : blockStep s = .next t) : s.KeepsRun t :=
  exec_keepsRun (fetch_not_starts hp) h

theorem blockStep_producer {s t : State} (h : blockStep s = .next t) : t.producer = s.producer :=
  (tracesAndEnvironmentReadOnly _ s t h).2.2.1

/-- Settles O38: the block writes neither, and the producer only appends to a live capture or ends it. -/
theorem bufferedDataIsImmutable : Obligations.BufferedDataIsImmutable := by
  intro s t hnew h
  rcases step_cases h with ⟨u, hu, hb⟩ | ⟨m, rest, hs, rfl⟩
  · have hus : u.phase = s.phase ∧ u.traces = s.traces ∧ u.producer = s.producer := by
      rcases hu with rfl | ⟨rest, -, rfl⟩ <;> exact ⟨rfl, rfl, rfl⟩
    obtain ⟨hphase, htraces, hproducer⟩ := hus
    have hp := (blockStep_producer hb).trans hproducer
    refine ⟨fun hne => ?_, by rw [hp]; exact BitVec.le_refl _, fun _ => hp⟩
    exact (blockStep_keepsRun (hphase ▸ hne) hb).traces.trans htraces
  · have hmoves := (s.setSchedule rest).hostMove_moves m
    generalize (s.setSchedule rest).hostMove m = t at hmoves ⊢
    cases hmoves with
    | append hlive hn hb =>
      refine ⟨fun _ => rfl, ?_, fun hended => ?_⟩
      · rw [BitVec.le_def]
        exact hb ▸ Nat.le_add_right _ _
      · rw [State.setSchedule_producer, hended] at hlive
        cases hlive
    | endCapture =>
      refine ⟨fun _ => rfl, BitVec.le_refl _, fun hended => ?_⟩
      change { s.producer with ended := true } = s.producer
      rw [← hended]
    | newRun => exact absurd hs (hnew _ _)
    | cancel | present | none => exact ⟨fun _ => rfl, BitVec.le_refl _, fun _ => rfl⟩

end Sys2Proof.Machine
end

section
/-! SUPPORT. Cursors move forward, and every request to move one backward stops the run
(70_reset_and_hazards R225, 60_exceptions R200). -/

namespace Sys2Proof.Machine

/-- No cursor of `t` is behind the one of `s` it comes from. -/
structure State.Forward (s t : State) : Prop where
  clk : s.clk.pos ≤ t.clk.pos
  cs : ∀ c d, s.cs = some c → t.cs = some d → c.pos ≤ d.pos
  data : ∀ (k : Nat) (l m : Line), s.data[k]? = some l → t.data[k]? = some m → l.cursor.pos ≤ m.cursor.pos

namespace State.Forward
variable {s t : State}

theorem refl (s : State) : s.Forward s where
  clk := BitVec.le_refl _
  cs c d hc hd := by
    rw [hc] at hd
    cases hd
    exact BitVec.le_refl _
  data k l m hl hm := by
    rw [hl] at hm
    cases hm
    exact BitVec.le_refl _

theorem of_clk (hclk : s.clk.pos ≤ t.clk.pos) (hcs : t.cs = s.cs) (hdata : t.data = s.data) : s.Forward t where
  clk := hclk
  cs := by
    rw [hcs]
    exact (refl s).cs
  data := by
    rw [hdata]
    exact (refl s).data

/-- The chip-select cursor moves to its next edge. -/
theorem of_cs {c d : Cursor} (hc : s.cs = some c) (ht : t.cs = some d) (hcd : c.pos ≤ d.pos)
    (hclk : s.clk.pos ≤ t.clk.pos) (hdata : t.data = s.data) : s.Forward t where
  clk := hclk
  cs c' d' hc' hd' := by
    rw [hc] at hc'
    rw [ht] at hd'
    cases hc'
    cases hd'
    exact hcd
  data := by
    rw [hdata]
    exact (refl s).data

/-- The data cursors move to a sample that is behind none of them (40_word_sampler R103). -/
theorem of_lines {p : Pos} (hl : linesBefore s.data p = true) (hclk : s.clk.pos ≤ t.clk.pos) (hcs : t.cs = s.cs)
    (hdata : t.data = linesAt s.data p) : s.Forward t where
  clk := hclk
  cs := by
    rw [hcs]
    exact (refl s).cs
  data k l m hk hm := by
    rw [hdata, linesAt, List.getElem?_map, hk] at hm
    cases hm
    simpa using List.all_eq_true.mp hl l (List.mem_of_getElem? hk)

end State.Forward

/-- The real end of a frame is at an edge after the clock cursor, and moves no other cursor (42_edge_decoder R133). -/
theorem State.RealEnd.cursors {s t : State} {w : Word} {p : Pos} (h : s.RealEnd w p t) :
    s.clk.pos < t.clk.pos ∧ t.cs = s.cs ∧ t.data = s.data := by
  cases h with
  | active hi ha =>
    exact ⟨by simpa [State.endFrameAt] using BitVec.lt_trans (Trace.nextEdge_some hi).2 (Trace.nextEdge_some ha).2,
      by simp [State.endFrameAt]⟩
  | inactive hi => exact ⟨by simpa [State.endFrameAt] using (Trace.nextEdge_some hi).2, by simp [State.endFrameAt]⟩

theorem State.reopenedAt_cursors (s : State) (e : Pos) (l : Level) :
    (s.reopenedAt e l).clk = s.clk ∧ (s.reopenedAt e l).cs = s.cs ∧ (s.reopenedAt e l).data = linesAt s.data e := by
  rcases s.closePending_cases e with ⟨-, h⟩ | ⟨-, h⟩ <;> simp [State.reopenedAt, h]

theorem State.Completes.forward {s t : State} {i : Instr} (h : s.Completes i t) (hi : ¬ starts i) : s.Forward t := by
  cases h with
  | start h =>
    rcases h with h | ⟨rfl, -⟩
    · exact absurd (.inr ⟨_, h⟩) hi
    · exact absurd (.inl rfl) hi
  | seekActive ha hseek | eSeek ha hseek =>
    obtain ⟨e, hlt, -, he⟩ := Cursor.seekActive_moved hseek
    cases he
    exact .of_clk (BitVec.le_of_lt hlt) rfl rfl
  | eEdgeReal ha hl hend =>
    obtain ⟨hclk, hcs, hdata⟩ := hend.cursors
    exact .of_lines hl (BitVec.le_of_lt hclk) hcs hdata
  | eProbeReal hend | opFinishReal hend =>
    obtain ⟨hclk, hcs, hdata⟩ := hend.cursors
    exact .of_clk (BitVec.le_of_lt hclk) hcs hdata
  | qInitHigh hc hlevel hf hb hle | qReassert hc hf hb hle =>
    exact .of_cs hc rfl (BitVec.le_of_lt (Trace.nextEdge_some hf).2) hle rfl
  | qDeassert hc hq => exact .of_cs hc rfl (BitVec.le_of_lt (Trace.nextEdge_some hq).2) (BitVec.le_refl _) rfl
  | qAlignClock ha hc hp => exact .of_clk (BitVec.le_of_lt (Trace.nextActive_some hp).2.1) rfl rfl
  | qRaceClock ha hc hp hb hq hle => exact .of_clk hle (by simp) (by simp)
  | realEdge hi he hb hl =>
    obtain ⟨hclk, hcs, hdata⟩ := State.reopenedAt_cursors { s with clk := { s.clk with pos := _ } } _ (s.clk.trace.level _)
    exact .of_lines hl (by rw [hclk]; exact BitVec.le_of_lt (Trace.nextEdge_some he).2) hcs hdata
  | dProbeEmpty hf =>
    refine .of_clk ?_ (by simp) (by simp)
    rw [BitVec.le_def, window_toNat hf]
    omega
  | opCloseAndOpen hl =>
    obtain ⟨hclk, hcs, hdata⟩ := s.reopenedAt_cursors _ (s.clk.trace.level _)
    exact .of_lines hl (by rw [hclk]; exact BitVec.le_refl _) hcs hdata
  | eEdgeLast ha hl | qEdge ha hl | opSampleWord hl => exact .of_lines hl (BitVec.le_refl _) rfl rfl
  | eProbeEmpty | qRaceChip | opCommit => exact .of_clk (by simp) (by simp) (by simp)
  | qInitLow | qAlignChip | dHeadProbe | dHeadAdvance | final | opEstimateWidth | opReportProgress | opMarkArrow =>
    exact .of_clk (BitVec.le_refl _) rfl rfl

theorem exec_forward {i : Instr} {s t : State} (hi : ¬ starts i) (h : exec i s = .next t) : s.Forward t := by
  rcases exec_cases h with hc | rfl | rfl | ⟨c, -, rfl⟩
  · exact hc.forward hi
  · exact .refl t
  · exact .of_clk (BitVec.le_refl _) rfl rfl
  · exact .of_clk (BitVec.le_refl _) rfl rfl

/-- In `IDLE` nothing is latched yet (70_reset_and_hazards R220). -/
theorem State.Inv.idle_latched {s : State} (hi : s.Inv) (hp : s.phase = .idle) :
    s.clk = Trace.quiet.cursor ∧ s.cs = none ∧ s.data = [] := by
  have h := hi.phase
  simp only [State.phaseOk, hp, Bool.and_eq_true, beq_iff_eq, Option.isNone_iff_eq_none, List.isEmpty_iff] at h
  obtain ⟨⟨⟨⟨⟨⟨⟨⟨hclk, hcs⟩, hdata⟩, -⟩, -⟩, -⟩, -⟩, -⟩, -⟩ := h
  exact ⟨hclk, hcs, hdata⟩

/-- A start from there begins at position 0 with fresh cursors. -/
theorem State.Inv.start_forward {s : State} (hi : s.Inv) (hp : s.phase = .idle) (w : BitVec 32) :
    s.Forward (s.start w) := by
  obtain ⟨hclk, hcs, hdata⟩ := hi.idle_latched hp
  have h0 : s.clk.pos = 0#64 := by rw [hclk]; rfl
  exact ⟨by rw [h0]; exact BitVec.le_def.mpr (Nat.zero_le _), fun c d hc => by simp [hcs] at hc, fun k l m hl => by simp [hdata] at hl⟩

theorem step_forward {s t : State} (hidle : s.phase = .idle → s.Inv)
    (hnew : ∀ p rest, s.schedule ≠ .host (.newRun p) :: rest) (h : step s = .next t) : s.Forward t := by
  rcases step_cases h with ⟨u, hu, hb⟩ | ⟨m, rest, hs, rfl⟩
  · have hut : u.Forward t := by
      by_cases hp : u.phase = .idle
      · rw [blockStep_idle hp] at hb
        cases hb
        have hui : u.Inv := by
          rcases hu with rfl | ⟨rest, -, rfl⟩
          · exact hidle hp
          · obtain ⟨h1, h2, h3, h4, h5, h6, h7, h8, h9, h10⟩ := hidle hp
            exact ⟨h1, h2, h3, h4, h5, h6, h7, h8, h9, h10⟩
        exact hui.start_forward hp _
      · exact exec_forward (fetch_not_starts hp) hb
    rcases hu with rfl | ⟨rest, -, rfl⟩
    · exact hut
    · exact ⟨hut.clk, hut.cs, hut.data⟩
  · have hmoves := (s.setSchedule rest).hostMove_moves m
    generalize (s.setSchedule rest).hostMove m = t at hmoves ⊢
    cases hmoves with
    | newRun => exact absurd hs (hnew _ _)
    | append | endCapture | cancel | present | none => exact .of_clk (BitVec.le_refl _) rfl rfl

/-! ## Backward requests -/

/-- A data cursor past a sample stops every operation that samples there. -/
theorem exec_sample_behind {s : State} {l : Line} (hl : l ∈ s.data) :
    let stopped : Host.Outcome State Fault Refusal := .next { s with phase := .stopped, cause := 0x10#8 }
    (∀ p, p < l.cursor.pos → exec (.opSampleWord p) s = stopped ∧ exec (.opCloseAndOpen p) s = stopped) ∧
    (∀ a, cfgAct s.cfg = some a → s.clk.pos < l.cursor.pos →
      exec .phEEdge s = stopped ∧ exec .phQEdge s = stopped) ∧
    ∀ e, s.clk.trace.nextEdge s.clk.pos = some e → e < s.producer.buffered → e < l.cursor.pos →
      exec .phDAdvance s = stopped ∧
        (s.clk.pos.toNat + s.estLatch.toNat < 2 ^ 64 → e.toNat ≤ s.clk.pos.toNat + s.estLatch.toNat →
          (s.producer.ended = true ∨ s.clk.pos.toNat + s.estLatch.toNat < s.producer.buffered.toNat) →
          exec .phDProbe s = stopped) := by
  intro stopped
  have behind : ∀ {p}, p < l.cursor.pos → linesBefore s.data p = false := fun hp =>
    List.all_eq_false.mpr ⟨l, hl, by simpa using hp⟩
  have stops : ∀ {i : Instr}, s.opRes i = .raise .nonmonotonic → exec i s = stopped := exec_of_raise
  refine ⟨fun p hp => ⟨stops ?_, stops (State.closeAndOpen_behind (behind hp))⟩,
    fun a ha hp => ⟨stops ?_, stops ?_⟩, fun e he hb hp => ?_⟩
  · rw [State.opRes, State.sampleWord_behind (behind hp)]
    rfl
  · rw [State.opRes, State.eEdge, State.act_of_cfgAct ha, Res.ok_bind, State.sampleWord_behind (behind hp)]
    rfl
  · rw [State.opRes, State.qEdge, State.act_of_cfgAct ha, Res.ok_bind, State.sampleWord_behind (behind hp)]
    rfl
  · have hreal := State.toRealEdge_behind he hb (behind hp)
    refine ⟨stops hreal, fun hf hle hw => stops ?_⟩
    rw [State.opRes, State.dProbe_crosses hf hw he hle, hreal]

/-- A synchronisation with a chip-select edge behind the clock cursor stops the run. -/
theorem exec_sync_behind {s : State} {c : Cursor} {f : Pos} (hc : s.cs = some c) (hf : c.trace.nextEdge c.pos = some f)
    (hb : f < s.producer.buffered) (hlt : f < s.clk.pos) :
    exec .phQReassert s = .next { s with phase := .stopped, cause := 0x10#8 } ∧
      (s.producer.readable c.pos = true → c.trace.level c.pos = true →
        exec .phQInit s = .next { s with phase := .stopped, cause := 0x10#8 }) := by
  have hsync : s.syncClock { c with pos := f } = .raise .nonmonotonic := State.syncClock_behind hlt
  refine ⟨exec_of_raise (c := .nonmonotonic) ?_, fun hr hl => exec_of_raise (c := .nonmonotonic) ?_⟩
  · rw [State.opRes, State.qReassert_eq hc, Cursor.advance_buffered hf hb, Res.ok_bind, hsync]
    rfl
  · rw [State.opRes, State.qInit_high hc hr hl, Cursor.advance_buffered hf hb, Res.ok_bind, hsync]
    rfl

/-- Settles O43: every move is forward, and the four kinds of backward request are faults. -/
theorem cursorsMoveForward : Obligations.CursorsMoveForward := by
  refine ⟨fun s t hidle hnew h => ?_, fun s l hl => exec_sample_behind hl,
    fun s c f hc hf hb hlt => exec_sync_behind hc hf hb hlt, fun s a c p ha hc hp hb hq hlt => ?_⟩
  · have hf := step_forward hidle hnew h
    exact ⟨hf.clk, hf.cs, hf.data⟩
  · exact exec_of_raise (c := .nonmonotonic) (by rw [State.opRes, State.qRace_clock ha hc hp hb hq, if_pos hlt])

end Sys2Proof.Machine
end

section
/-! SUPPORT. A state seen in another way: traces cut, another producer, other presented inputs. Where what is
seen agrees on everything a primitive reads, every operation does the same (20_memory R54 and section 5). -/

namespace Sys2Proof.Machine

/-! ## Results that agree -/

/-- The result `r'` is `r` with its value changed by `f`; in the weak reading `r` may hold where `r'` does not. -/
def Res.Agrees {α β : Type} (weak : Prop) (f : α → β) (r : Res α) (r' : Res β) : Prop :=
  r' = r.map f ∨ weak ∧ r = .hold

namespace Res.Agrees
variable {α β γ δ : Type} {weak : Prop}

theorem refl (r : Res α) : r.Agrees weak id r := by
  cases r <;> exact .inl rfl

theorem ok {f : α → β} {a : α} {b : β} (h : b = f a) : (Res.ok a).Agrees weak f (.ok b) := .inl (by rw [h]; rfl)

theorem raise {f : α → β} (c : Cause) : (Res.raise c : Res α).Agrees weak f (.raise c) := .inl rfl

theorem bind {f : α → β} {g : γ → δ} {r : Res α} {r' : Res β} {k : α → Res γ} {k' : β → Res δ}
    (h : r.Agrees weak f r') (hk : ∀ a, r = .ok a → (k a).Agrees weak g (k' (f a))) :
    (r.bind k).Agrees weak g (r'.bind k') := by
  rcases h with rfl | ⟨hw, rfl⟩
  · cases r with
    | ok a => exact hk a rfl
    | hold | done | raise c | stuck e => exact .inl rfl
  · exact .inr ⟨hw, rfl⟩

theorem ite {f : α → β} {p p' : Prop} [Decidable p] [Decidable p'] {r q : Res α} {r' q' : Res β} (hp : p' ↔ p)
    (hr : p → r.Agrees weak f r') (hq : ¬ p → q.Agrees weak f q') :
    (if p then r else q).Agrees weak f (if p' then r' else q') := by
  by_cases h : p
  · rw [if_pos h, if_pos (hp.mpr h)]
    exact hr h
  · rw [if_neg h, if_neg (mt hp.mp h)]
    exact hq h

end Res.Agrees

/-! ## Views -/

/-- Another way to see a state: each trace, the producer and the presented inputs. -/
structure View where
  trace : Trace → Trace
  producer : Producer
  inputs : Inputs → Inputs

def View.cursor (v : View) (c : Cursor) : Cursor := { c with trace := v.trace c.trace }

def View.line (v : View) (l : Line) : Line := { l with cursor := v.cursor l.cursor }

/-- The state as `v` sees it. -/
def View.state (v : View) (s : State) : State :=
  { s with
    inputs := v.inputs s.inputs
    producer := v.producer
    clk := v.cursor s.clk
    cs := s.cs.map v.cursor
    data := s.data.map v.line }

/-- What is seen ahead, `x'`, agrees with what is there, `x`: a buffered edge is seen and buffered, nothing
else is seen, and, but for the weak reading, nothing else is buffered. -/
structure SeenAhead (weak : Prop) (pr pr' : Producer) (x x' : Option Pos) : Prop where
  known : pr.known x = true → x' = x ∧ pr'.known x = true
  there : ∀ e, x' = some e → x = some e
  unknown : ¬ weak → pr.known x = false → pr'.known x' = false

/-- The view agrees with the producer `pr` on what can be read and whether to wait. -/
structure View.SeesProducer (v : View) (weak : Prop) (pr : Producer) : Prop where
  live : weak → pr.ended = false
  ended : ¬ weak → v.producer.ended = pr.ended
  readable : ∀ p, pr.readable p = true → v.producer.readable p = true
  unreadable : ¬ weak → ∀ p, pr.readable p = false → v.producer.readable p = false
  reached : ∀ p, (p < pr.buffered ∨ pr.ended = true) → p < v.producer.buffered ∨ v.producer.ended = true
  unreached : ¬ weak → ∀ p, (p < v.producer.buffered ∨ v.producer.ended = true) → p < pr.buffered ∨ pr.ended = true

/-- The view agrees with the trace `t`, as far as `pr` lets it be read. -/
structure View.SeesTrace (v : View) (weak : Prop) (pr : Producer) (t : Trace) : Prop where
  level : ∀ p, pr.readable p = true → (v.trace t).level p = t.level p
  edge : ∀ p, SeenAhead weak pr v.producer (t.nextEdge p) ((v.trace t).nextEdge p)
  active : ∀ a p, SeenAhead weak pr v.producer (t.nextActive a p) ((v.trace t).nextActive a p)
  window : ¬ weak → ∀ p q, (q < pr.buffered ∨ pr.ended = true) → ∀ e ≤ q,
    (t.nextEdge p = some e ↔ (v.trace t).nextEdge p = some e)

/-- The view agrees with everything the run of `s` reads. -/
structure View.Sees (v : View) (weak : Prop) (s : State) : Prop where
  producer : v.SeesProducer weak s.producer
  traces : ∀ t ∈ s.traces, v.SeesTrace weak s.producer t

theorem View.Sees.keeps {v : View} {weak : Prop} {s u : State} (h : v.Sees weak s) (hk : s.KeepsRun u) :
    v.Sees weak u := by
  obtain ⟨hp, ht⟩ := h
  rw [← hk.producer] at hp ht
  rw [← hk.traces] at ht
  exact ⟨hp, ht⟩

section
variable {v : View} {weak : Prop} {s : State} (h : v.Sees weak s)
include h

theorem View.Sees.clk : v.SeesTrace weak s.producer s.clk.trace := h.traces _ List.mem_cons_self

theorem View.Sees.cs {c : Cursor} (hc : s.cs = some c) : v.SeesTrace weak s.producer c.trace :=
  h.traces _ (by simp [State.traces, hc])

theorem View.Sees.line {l : Line} (hl : l ∈ s.data) : v.SeesTrace weak s.producer l.cursor.trace :=
  h.traces _ (List.mem_cons_of_mem _ (List.mem_append_right _ (List.mem_map_of_mem hl)))

end

/-! ## Primitives -/

/-- Of two edges the earlier is buffered exactly when one of them is (43_cs_decoder R152). -/
theorem Producer.known_posMin (pr : Producer) (a c : Option Pos) :
    pr.known (posMin a c) = (pr.known a || pr.known c) := by
  have hle : ∀ p q : Pos, p ≤ q → q < pr.buffered → p < pr.buffered := fun p q => by bv_omega
  cases a with
  | none => simp [posMin, posLt, Producer.known]
  | some p =>
    cases c with
    | none => simp [posMin, posLt, Producer.known]
    | some q =>
      rw [Bool.eq_iff_iff, posMin]
      by_cases h : p < q
      · simpa [posLt, h, Producer.known] using hle p q (BitVec.le_of_lt h)
      · simpa [posLt, h, Producer.known] using hle q p (BitVec.not_lt.mp h)

section
variable {v : View} {weak : Prop} {pr : Producer} (hv : v.SeesProducer weak pr)
include hv

/-- Both wait the same way, but for the weak reading of a live capture. -/
theorem View.SeesProducer.wait {α β : Type} (f : α → β) {r' : Res β} (h : ¬ weak → r' = v.producer.wait) :
    (pr.wait : Res α).Agrees weak f r' := by
  by_cases hw : weak
  · exact .inr ⟨hw, by rw [Producer.wait, hv.live hw]; rfl⟩
  · refine .inl ?_
    rw [h hw, Producer.wait, Producer.wait, hv.ended hw]
    cases pr.ended <;> rfl

section
variable {c : Cursor} (hc : v.SeesTrace weak pr c.trace)
include hc

theorem View.currentLevel_agrees : (c.currentLevel pr).Agrees weak id ((v.cursor c).currentLevel v.producer) := by
  by_cases hr : pr.readable c.pos = true
  · rw [Cursor.currentLevel_readable hr, Cursor.currentLevel_readable (c := v.cursor c) (hv.readable _ hr)]
    exact .ok (hc.level _ hr)
  · rw [Cursor.currentLevel_unreadable (by simpa using hr)]
    exact hv.wait id fun hw =>
      Cursor.currentLevel_unreadable (c := v.cursor c) (hv.unreadable hw c.pos (by simpa using hr))

theorem View.advanceToNextEdge_agrees :
    (c.advanceToNextEdge pr).Agrees weak v.cursor ((v.cursor c).advanceToNextEdge v.producer) := by
  have he := hc.edge c.pos
  by_cases hk : pr.known (c.trace.nextEdge c.pos) = true
  · obtain ⟨e, hn, hb⟩ := Producer.known_iff.mp hk
    obtain ⟨hsame, hknown⟩ := he.known hk
    rw [hn] at hsame hknown
    rw [Cursor.advance_buffered hn hb,
      Cursor.advance_buffered (c := v.cursor c) hsame (Producer.known_some.mp hknown)]
    exact .ok rfl
  · rw [Cursor.advance_waits (by simpa using hk)]
    exact hv.wait v.cursor fun hw =>
      Cursor.advance_waits (c := v.cursor c) (he.unknown hw (by simpa using hk))

omit hv in
theorem View.moreBuffered_agrees (hw : ¬ weak) : (v.cursor c).moreBuffered v.producer = c.moreBuffered pr := by
  have he := hc.edge c.pos
  unfold Cursor.moreBuffered
  by_cases hk : pr.known (c.trace.nextEdge c.pos) = true
  · obtain ⟨hsame, hknown⟩ := he.known hk
    rw [hk]
    exact (congrArg v.producer.known hsame).trans hknown
  · rw [Bool.not_eq_true] at hk
    rw [hk]
    exact he.unknown hw hk

theorem View.wouldCross_agrees (hw : ¬ weak) (n : Pos) :
    (c.wouldCross pr n).Agrees weak id ((v.cursor c).wouldCross v.producer n) := by
  refine .ite Iff.rfl (fun _ => .raise _) fun _ => .ite ⟨hv.unreached hw _, hv.reached _⟩ (fun hb => .ok ?_) fun _ => .inl rfl
  rw [Bool.eq_iff_iff]
  have hwin := fun e he => hc.window hw c.pos (c.pos + n) hb e he
  have hsome : ∀ x : Option Pos, (match x with
      | some t => decide (t ≤ c.pos + n)
      | none => false) = true ↔ ∃ e, e ≤ c.pos + n ∧ x = some e := by
    intro x
    cases x <;> simp
  exact (hsome _).trans ((exists_congr fun e => and_congr_right fun he => (hwin e he).symm).trans (hsome _).symm)

end

theorem View.advanceToAbsolute_agrees (c : Cursor) (p : Pos) :
    (c.advanceToAbsolute pr p).Agrees weak v.cursor ((v.cursor c).advanceToAbsolute v.producer p) := by
  by_cases hlt : p < c.pos
  · rw [Cursor.advanceToAbsolute_behind hlt, Cursor.advanceToAbsolute_behind (c := v.cursor c) hlt]
    exact .raise _
  by_cases hb : p < pr.buffered ∨ pr.ended = true
  · rw [Cursor.advanceToAbsolute_eq_ok.mpr ⟨BitVec.not_lt.mp hlt, hb, rfl⟩,
      Cursor.advanceToAbsolute_eq_ok (c := v.cursor c) |>.mpr ⟨BitVec.not_lt.mp hlt, hv.reached _ hb, rfl⟩]
    exact .ok rfl
  · rw [Cursor.advanceToAbsolute, if_neg hlt, if_neg hb]
    by_cases hw : weak
    · exact .inr ⟨hw, rfl⟩
    · rw [Cursor.advanceToAbsolute, if_neg (c := p < (v.cursor c).pos) hlt, if_neg (mt (hv.unreached hw p) hb)]
      exact .inl rfl

/-- A race is settled the same way, and by the same edge. -/
theorem View.race_agrees {a a' c c' : Option Pos} (ha : SeenAhead weak pr v.producer a a')
    (hc : SeenAhead weak pr v.producer c c') :
    (pr.race a c).Agrees weak id (v.producer.race a' c') ∧ (pr.race a c = .ok true → a' = a) ∧
      (pr.race a c = .ok false → c' = c) := by
  have hclock : pr.race a c = .ok true → a' = a ∧ v.producer.race a' c' = .ok true := fun h => by
    obtain ⟨p, rfl, hb, hq⟩ := Producer.race_clock h
    obtain ⟨hsame, hknown⟩ := ha.known (Producer.known_some.mpr hb)
    exact ⟨hsame, Producer.race_of_clock hsame (Producer.known_some.mp hknown) fun q hq' => hq q (hc.there q hq')⟩
  have hchip : pr.race a c = .ok false → c' = c ∧ v.producer.race a' c' = .ok false := fun h => by
    obtain ⟨q, rfl, hb, hp⟩ := Producer.race_chipSelect h
    obtain ⟨hsame, hknown⟩ := hc.known (Producer.known_some.mpr hb)
    exact ⟨hsame, Producer.race_of_chipSelect hsame (Producer.known_some.mp hknown) fun p hp' => hp p (ha.there p hp')⟩
  refine ⟨?_, fun h => (hclock h).1, fun h => (hchip h).1⟩
  by_cases hk : pr.known (posMin a c) = true
  · have hr : pr.race a c = .ok (posLt a c) := Producer.race_eq_ok.mpr ⟨hk, rfl⟩
    cases hl : posLt a c with
    | true =>
      rw [hl] at hr
      rw [hr, (hclock hr).2]
      exact .ok rfl
    | false =>
      rw [hl] at hr
      rw [hr, (hchip hr).2]
      exact .ok rfl
  · have hwait : pr.race a c = pr.wait := if_neg hk
    rw [hwait]
    rw [Producer.known_posMin, Bool.or_eq_true, not_or, Bool.not_eq_true, Bool.not_eq_true] at hk
    exact hv.wait id fun hw => Producer.race_waits (ha.unknown hw hk.1) (hc.unknown hw hk.2)

end

end Sys2Proof.Machine
end

section
/-! SUPPORT. Every operation does the same under a view that agrees with what it reads; and the four views: the
buffered part of the traces, other presented inputs, another length of an ended capture, and a longer capture. -/

namespace Sys2Proof.Machine

/-! ## Shared operations -/

@[simp] theorem View.commit_state (v : View) (s : State) (w : Word) (p q : Pos) :
    (v.state s).commit w p q = v.state (s.commit w p q) := by
  simp [State.commit_eq, View.state, State.frameSeq]

theorem View.closePending_state (v : View) (s : State) (e : Pos) :
    (v.state s).closePending e = v.state (s.closePending e) := by
  unfold State.closePending
  exact (apply_ite v.state (s.pendValid = true) _ _).symm ▸ by
    rw [View.commit_state]
    rfl

section
variable {v : View} {weak : Prop} {s : State}

theorem View.sampleLines_agrees {pr : Producer} (hv : v.SeesProducer weak pr) (p : Pos) {ls : List Line}
    (hl : ∀ l ∈ ls, v.SeesTrace weak pr l.cursor.trace) :
    (sampleLines pr p ls).Agrees weak (fun r => (r.1.map v.line, r.2)) (sampleLines v.producer p (ls.map v.line)) := by
  induction ls with
  | nil => exact .ok rfl
  | cons l ls ih =>
    refine (View.advanceToAbsolute_agrees hv l.cursor p).bind fun c hc => ?_
    obtain ⟨-, -, rfl⟩ := Cursor.advanceToAbsolute_eq_ok.mp hc
    refine (View.currentLevel_agrees hv (c := ⟨l.cursor.trace, p⟩) (hl l List.mem_cons_self)).bind fun lvl _ => ?_
    refine (ih fun m hm => hl m (List.mem_cons_of_mem _ hm)).bind fun r _ => .ok rfl

theorem View.sampleWord_agrees (h : v.Sees weak s) (p : Pos) :
    (s.sampleWord p).Agrees weak (fun r => (v.state r.1, r.2)) ((v.state s).sampleWord p) := by
  refine .ite ?_ (fun _ => .raise _) fun _ =>
    (View.sampleLines_agrees h.producer p fun l hl => h.line hl).bind fun r _ => .ok ?_
  · rw [View.state, List.any_map]
    rfl
  · simp [View.state, State.emit, State.setData]

theorem State.sampleWord_keepsRun {t : State} {p : Pos} {w : Word} (h : s.sampleWord p = .ok (t, w)) : s.KeepsRun t := by
  rw [State.sampleWord_state h]
  exact ⟨rfl, rfl, rfl, rfl, rfl, rfl, rfl, rfl, linesAt_reads _ _⟩

theorem View.act_agrees (v : View) (s : State) : s.act.Agrees weak id (v.state s).act := by
  exact .refl s.act

theorem View.csCursor_agrees (v : View) (s : State) : s.csCursor.Agrees weak v.cursor (v.state s).csCursor := by
  unfold State.csCursor View.state
  cases s.cs <;> exact .inl rfl

theorem View.syncClock_agrees (h : v.Sees weak s) (c : Cursor) :
    (s.syncClock c).Agrees weak v.state ((v.state s).syncClock (v.cursor c)) :=
  (View.advanceToAbsolute_agrees h.producer s.clk c.pos).bind fun _ _ => .ok rfl

theorem View.toActiveEdge_agrees (h : v.Sees weak s) (a : Option Pos) :
    (s.toActiveEdge a).Agrees weak v.state ((v.state s).toActiveEdge a) := by
  cases a with
  | none => exact .ok rfl
  | some p => exact (View.advanceToAbsolute_agrees h.producer s.clk p).bind fun _ _ => .ok rfl

/-! ## The chip-select phases, in the weak reading too -/

theorem View.qInit_agrees (h : v.Sees weak s) : s.qInit.Agrees weak v.state (v.state s).qInit := by
  refine (v.csCursor_agrees s).bind fun c hc => ?_
  have hsees := h.cs (State.csCursor_eq_ok.mp hc)
  refine (View.currentLevel_agrees h.producer hsees).bind fun lvl _ => ?_
  refine Res.Agrees.bind (f := v.state) (.ite Iff.rfl (fun _ => ?_) fun _ => .ok rfl) fun t _ => .ok rfl
  exact (View.advanceToNextEdge_agrees h.producer hsees).bind fun d _ => View.syncClock_agrees h d

theorem View.qAlign_agrees (h : v.Sees weak s) : s.qAlign.Agrees weak v.state (v.state s).qAlign := by
  refine (v.act_agrees s).bind fun a _ => (v.csCursor_agrees s).bind fun c hc => ?_
  obtain ⟨hrace, hclock, -⟩ := View.race_agrees h.producer (h.clk.active a s.clk.pos)
    ((h.cs (State.csCursor_eq_ok.mp hc)).edge c.pos)
  refine hrace.bind fun clockWins hr => ?_
  cases clockWins with
  | true =>
    change (s.toActiveEdge _).Agrees weak v.state ((v.state s).toActiveEdge ((v.trace s.clk.trace).nextActive a s.clk.pos))
    rw [hclock hr]
    exact View.toActiveEdge_agrees h _
  | false => exact .ok rfl

theorem View.qEdge_agrees (h : v.Sees weak s) : s.qEdge.Agrees weak v.state (v.state s).qEdge :=
  (v.act_agrees s).bind fun _ _ => (View.sampleWord_agrees h s.clk.pos).bind fun _ _ => .ok rfl

theorem View.qRace_agrees (h : v.Sees weak s) : s.qRace.Agrees weak v.state (v.state s).qRace := by
  refine (v.act_agrees s).bind fun a _ => (v.csCursor_agrees s).bind fun c hc => ?_
  obtain ⟨hrace, hclock, hchip⟩ := View.race_agrees h.producer (h.clk.active a s.sLatch)
    ((h.cs (State.csCursor_eq_ok.mp hc)).edge c.pos)
  refine hrace.bind fun clockWins hr => ?_
  cases clockWins with
  | true =>
    change (State.toActiveEdge _ _).Agrees weak v.state
      (State.toActiveEdge ((v.state s).commit s.wLatch s.sLatch (lastBefore ((v.trace s.clk.trace).nextActive a s.sLatch)))
        ((v.trace s.clk.trace).nextActive a s.sLatch))
    rw [hclock hr, View.commit_state]
    exact View.toActiveEdge_agrees (h.keeps (by constructor <;> simp)) _
  | false =>
    change (Res.ok _).Agrees weak v.state (.ok (((v.state s).commit s.wLatch s.sLatch
      (lastBefore ((v.trace c.trace).nextEdge c.pos))).setPhase .qDeassert))
    rw [hchip hr, View.commit_state]
    exact .ok rfl

theorem View.qDeassert_agrees (h : v.Sees weak s) : s.qDeassert.Agrees weak v.state (v.state s).qDeassert :=
  (v.csCursor_agrees s).bind fun _ hc =>
    (View.advanceToNextEdge_agrees h.producer (h.cs (State.csCursor_eq_ok.mp hc))).bind fun _ _ => .ok rfl

/-- What `Q_REASSERT` writes beside the cursors (43_cs_decoder R157). -/
theorem State.report_assertion_eq (s : State) (p : Pos) : (s.reportProgress p).beginAssertion.forgetWidth =
    { s with out := s.out ++ [.progress p], progress := p, seq := 0#64, newAssert := true, lastWKnown := false } := by
  rfl

theorem View.qReassert_agrees (h : v.Sees weak s) : s.qReassert.Agrees weak v.state (v.state s).qReassert :=
  (v.csCursor_agrees s).bind fun _ hc =>
    (View.advanceToNextEdge_agrees h.producer (h.cs (State.csCursor_eq_ok.mp hc))).bind fun d _ =>
      (View.syncClock_agrees h d).bind fun t _ => .ok (by rw [State.report_assertion_eq, State.report_assertion_eq]; rfl)

end

/-! ## The other operations -/

section
variable {v : View} {s : State} (h : v.Sees False s)
include h

theorem View.seekActive_agrees : s.seekActive.Agrees False v.state (v.state s).seekActive := by
  have hadv : ∀ c : Cursor, c.trace = s.clk.trace → (c.advanceToNextEdge s.producer).Agrees False v.cursor
      ((v.cursor c).advanceToNextEdge v.producer) := fun c hc =>
    View.advanceToNextEdge_agrees h.producer (hc ▸ h.clk)
  refine (v.act_agrees s).bind fun a _ => Res.Agrees.bind (f := v.cursor) ?_ fun _ _ => .ok rfl
  refine (View.currentLevel_agrees h.producer h.clk).bind fun lvl _ => .ite Iff.rfl (fun _ => ?_) fun _ => hadv _ rfl
  refine (hadv _ rfl).bind fun c hc => hadv c ?_
  obtain ⟨e, -, -, rfl⟩ := Cursor.advanceToNextEdge_eq_ok.mp hc
  rfl

theorem View.finishReal_agrees (w : Word) (p : Pos) :
    (s.finishReal w p).Agrees False v.state ((v.state s).finishReal w p) := by
  refine (View.advanceToNextEdge_agrees h.producer h.clk).bind fun c hc => ?_
  have hc : v.SeesTrace False s.producer c.trace := by
    obtain ⟨e, -, -, rfl⟩ := Cursor.advanceToNextEdge_eq_ok.mp hc
    exact h.clk
  refine .ite (by rw [← View.moreBuffered_agrees (v := v) hc not_false]; rfl)
    (fun _ => (View.advanceToNextEdge_agrees h.producer hc).bind fun d _ => .ok ?_) fun _ => .ok ?_
  · exact congrArg (fun u => u.setPhase .eEdge) (v.commit_state (s.setClk d) w p _)
  · exact congrArg (fun u => u.setPhase .eSeek) (v.commit_state (s.setClk c) w p _)

theorem View.eSeek_agrees : s.eSeek.Agrees False v.state (v.state s).eSeek :=
  (View.seekActive_agrees h).bind fun _ _ => .ok rfl

theorem View.eEdge_agrees : s.eEdge.Agrees False v.state (v.state s).eEdge := by
  refine (v.act_agrees s).bind fun a _ => (View.sampleWord_agrees h s.clk.pos).bind fun r hr => ?_
  have hu : v.Sees False (r.1.markArrow s.clk.pos a) := by
    obtain ⟨h1, h2, h3, h4, h5, h6, h7, h8, h9⟩ := State.sampleWord_keepsRun (w := r.2) hr
    exact h.keeps ⟨h1, h2, h3, h4, h5, h6, h7, h8, h9⟩
  exact .ite (by rw [← View.moreBuffered_agrees (v := v) hu.clk not_false]; rfl)
    (fun _ => View.finishReal_agrees hu _ _) fun _ => .ok rfl

theorem View.eProbe_agrees : s.eProbe.Agrees False v.state (v.state s).eProbe := by
  exact Res.Agrees.bind (f := id) (.refl (s.provisionalEnd s.sLatch s.estLatch)) fun q _ =>
    (View.wouldCross_agrees h.producer h.clk not_false s.estLatch).bind fun crosses _ =>
      .ite Iff.rfl (fun _ => View.finishReal_agrees h _ _) fun _ =>
        .ok (congrArg (fun u => u.setPhase .eSeek) (v.commit_state s _ _ _))

theorem View.dHead_agrees : (v.state s).dHead = v.state s.dHead := by
  have hmore : (v.state s).clk.moreBuffered (v.state s).producer = s.clk.moreBuffered s.producer :=
    View.moreBuffered_agrees h.clk not_false
  unfold State.dHead
  rw [hmore]
  by_cases hp : (s.pendValid && !s.clk.moreBuffered s.producer) = true
  · rw [if_pos hp]
    exact if_pos hp
  · rw [if_neg hp]
    exact if_neg hp

theorem View.closeAndOpen_agrees (e : Pos) :
    (s.closeAndOpen e).Agrees False v.state ((v.state s).closeAndOpen e) := by
  have hclose : v.Sees False (s.closePending e) := by
    rcases s.closePending_cases e with ⟨-, hc⟩ | ⟨-, hc⟩ <;> rw [hc]
    · exact h.keeps (by constructor <;> simp)
    · exact h
  unfold State.closeAndOpen
  rw [View.closePending_state]
  refine (View.sampleWord_agrees hclose e).bind fun r _ => ?_
  exact (View.currentLevel_agrees h.producer (c := ⟨s.clk.trace, e⟩) h.clk).bind fun lvl _ => .ok rfl

theorem View.toRealEdge_agrees : s.toRealEdge.Agrees False v.state (v.state s).toRealEdge := by
  refine (View.advanceToNextEdge_agrees h.producer h.clk).bind fun c hc => ?_
  obtain ⟨e, -, -, rfl⟩ := Cursor.advanceToNextEdge_eq_ok.mp hc
  have hu : v.Sees False (s.setClk ⟨s.clk.trace, e⟩) := h.keeps ⟨rfl, rfl, rfl, rfl, rfl, rfl, rfl, rfl, rfl⟩
  exact View.closeAndOpen_agrees hu e

theorem View.dProbe_agrees : s.dProbe.Agrees False v.state (v.state s).dProbe :=
  (View.wouldCross_agrees h.producer h.clk not_false s.estLatch).bind fun _ _ =>
    .ite Iff.rfl (fun _ => View.toRealEdge_agrees h) fun _ =>
      (View.advanceToAbsolute_agrees h.producer s.clk (s.clk.pos + s.estLatch)).bind fun c _ =>
        .ok (congrArg (fun u => (u.setPendValid false).setPhase .dHead) (v.commit_state (s.setClk c) _ _ _))

/-- Every operation but a start step does the same. -/
theorem View.opRes_agrees {i : Instr} (hi : ¬ starts i) : (s.opRes i).Agrees False v.state ((v.state s).opRes i) := by
  cases i with
  | cfgEdgeRise | cfgEdgeFall | cfgDualEdge | cfgReservedMode3 | cfgCsRise | cfgCsFall | cfgReservedCsDual
  | cfgReservedCsMode3 | cfgReservedBits _ _ => exact absurd (.inr ⟨_, rfl⟩) hi
  | phIdleStart => exact absurd (.inl rfl) hi
  | phESeek => exact View.eSeek_agrees h
  | phEEdge => exact View.eEdge_agrees h
  | phEProbe => exact View.eProbe_agrees h
  | phQInit => exact View.qInit_agrees h
  | phQAlign => exact View.qAlign_agrees h
  | phQEdge => exact View.qEdge_agrees h
  | phQRace => exact View.qRace_agrees h
  | phQDeassert => exact View.qDeassert_agrees h
  | phQReassert => exact View.qReassert_agrees h
  | phDHead => exact .ok (View.dHead_agrees h)
  | phDAdvance => exact View.toRealEdge_agrees h
  | phDProbe => exact View.dProbe_agrees h
  | phDone | phCancelled | phStopped | opEstimateWidth | opReportProgress _ | opMarkArrow _ _ => exact .ok rfl
  | opSampleWord p => exact (View.sampleWord_agrees h p).bind fun _ _ => .ok rfl
  | opCommit w p q => exact .ok (v.commit_state s w p q)
  | opFinishReal w p => exact View.finishReal_agrees h w p
  | opCloseAndOpen e => exact View.closeAndOpen_agrees h e
  | opSeekActive => exact View.seekActive_agrees h

end

/-- A settled step under the view is the step, seen. -/
theorem View.settle_state (v : View) (r : Res State) (s : State) :
    (r.map v.state).settle (v.state s) = mapNext v.state (r.settle s) := by
  cases r <;> rfl

theorem View.exec_agrees {v : View} {s : State} {i : Instr} (h : v.Sees False s) (hi : ¬ starts i) :
    exec i (v.state s) = mapNext v.state (exec i s) := by
  rw [exec_eq_settle, exec_eq_settle, (View.opRes_agrees h hi).resolve_right (fun hw => hw.1), v.settle_state]

end Sys2Proof.Machine
end

section
/-! SUPPORT. The start step under a view, and the four views (20_memory R54 and section 5, 92_eei_decisions D31). -/

namespace Sys2Proof.Machine

/-! ## The start step -/

/-- The view shows the presented bindings with its traces, and the configuration word as it is. -/
structure View.Presents (v : View) (i : Inputs) : Prop where
  cfg : (v.inputs i).cfg = i.cfg
  clk : (v.inputs i).clk = v.trace i.clk
  cs : (v.inputs i).cs = i.cs.map v.trace
  lines : (v.inputs i).lines = i.lines.map v.trace

theorem View.mapLines_map (v : View) (i : Nat) (ts : List Trace) :
    mapLines i (ts.map v.trace) = (mapLines i ts).map v.line := by
  induction ts generalizing i with
  | nil => rfl
  | cons t ts ih =>
    rw [List.map_cons, mapLines, ih]
    rfl

section
variable {v : View} {s : State} (h : v.Presents s.inputs)
include h

theorem View.latch_state (w : BitVec 32) : (v.state s).latch w = v.state (s.latch w) := by
  have hcs : ((v.inputs s.inputs).cs).map Trace.cursor = (s.inputs.cs.map Trace.cursor).map v.cursor := by
    rw [h.cs, Option.map_map, Option.map_map]
    rfl
  have hdata : mapLines 0 (v.inputs s.inputs).lines = (mapLines 0 s.inputs.lines).map v.line := by
    rw [h.lines, v.mapLines_map]
  have hclk : (v.inputs s.inputs).clk.cursor = v.cursor s.inputs.clk.cursor := by
    rw [h.clk]
    rfl
  change ((((v.state s).setCfg w).setClk (v.inputs s.inputs).clk.cursor).setCs
    ((v.inputs s.inputs).cs.map Trace.cursor)).setData (mapLines 0 (v.inputs s.inputs).lines) = _
  rw [hcs, hdata, hclk]
  rfl

/-- The checks count the data channels and ask for a chip-select binding; they read no trace (60_exceptions R201). -/
theorem View.startCheck_state (c : Config) (w : BitVec 32) :
    startCheck c w (v.inputs s.inputs) = startCheck c w s.inputs := by
  unfold startCheck
  rw [h.lines, h.cs, List.length_map, Option.isSome_map]

theorem View.start_state (w : BitVec 32) : (v.state s).start w = v.state (s.start w) := by
  unfold State.start
  rw [View.latch_state h]
  have hcheck : startCheck (v.state s).config w (v.state s).inputs = startCheck s.config w s.inputs :=
    View.startCheck_state h s.config w
  rw [hcheck]
  cases startCheck s.config w s.inputs with
  | some c => rfl
  | none =>
    unfold State.enter
    cases cfgFirstPhase w <;> rfl

theorem View.exec_start {i : Instr} (hi : starts i) : exec i (v.state s) = mapNext v.state (exec i s) := by
  have hidle : exec .phIdleStart (v.state s) = .next ((v.state s).start s.inputs.cfg) := by rw [← h.cfg]; rfl
  rcases hi with hi | ⟨w, hw⟩
  · have hi : i = .phIdleStart := by cases i <;> simp [encode] at hi ⊢
    rw [hi, hidle, View.start_state h]
    rfl
  · rw [exec_of_cfg_code hw, exec_of_cfg_code hw, View.start_state h]
    rfl

end

/-! ## The buffered part of the traces -/

/-- What is buffered by the producer `pr`. -/
def View.buffered (pr : Producer) : View where
  trace t := t.below pr.buffered
  producer := pr
  inputs i := i.below pr.buffered

theorem State.visible_eq (s : State) : s.visible = (View.buffered s.producer).state s := rfl

theorem View.buffered_presents (pr : Producer) (i : Inputs) : (View.buffered pr).Presents i where
  cfg := rfl
  clk := rfl
  cs := rfl
  lines := List.reduceOption_map

/-- In a rising list the first position of a kind below `b` is the first of that kind, when that is below `b`. -/
theorem seenAhead_filter {pr : Producer} {es : List Pos} (hrise : es.Pairwise (fun p q => p < q)) {P P' : Pos → Bool}
    (hP : ∀ e < pr.buffered, P' e = P e) :
    SeenAhead False pr pr (es.find? P) ((es.filter fun e => e < pr.buffered).find? P') := by
  have hcut : (es.filter fun e => e < pr.buffered).find? P' = es.find? fun e => decide (e < pr.buffered) && P e := by
    rw [List.find?_filter]
    congr 1
    funext e
    by_cases he : e < pr.buffered
    · simp [he, hP e he]
    · simp [he]
  rw [hcut]
  have there : ∀ e, es.find? (fun e => decide (e < pr.buffered) && P e) = some e → es.find? P = some e := by
    intro e he
    obtain ⟨hPe, as, bs, hes, has⟩ := List.find?_eq_some_iff_append.mp he
    simp only [Bool.and_eq_true, decide_eq_true_eq] at hPe
    refine List.find?_eq_some_iff_append.mpr ⟨hPe.2, as, bs, hes, fun f hf => ?_⟩
    have hfe : f < e := (List.pairwise_append.mp (hes ▸ hrise)).2.2 f hf e List.mem_cons_self
    simpa [BitVec.lt_trans hfe hPe.1] using has f hf
  have known : ∀ e, es.find? P = some e → e < pr.buffered →
      es.find? (fun e => decide (e < pr.buffered) && P e) = some e := by
    intro e he hb
    obtain ⟨hPe, as, bs, hes, has⟩ := List.find?_eq_some_iff_append.mp he
    refine List.find?_eq_some_iff_append.mpr ⟨by simp [hb, hPe], as, bs, hes, fun f hf => ?_⟩
    have hf := has f hf
    rw [Bool.not_eq_true'] at hf
    simp [hf]
  refine ⟨fun hk => ?_, there, fun _ hk => ?_⟩
  · obtain ⟨e, he, hb⟩ := Producer.known_iff.mp hk
    exact ⟨by rw [known e he hb, he], hk⟩
  · rw [← Bool.not_eq_true] at hk ⊢
    refine mt (fun hk' => ?_) hk
    obtain ⟨e, he, hb⟩ := Producer.known_iff.mp hk'
    exact Producer.known_iff.mpr ⟨e, there e he, hb⟩

/-- Below the buffered length the visible part of a trace has the levels of the trace (20_memory R51, R54). -/
theorem Trace.below_level (t : Trace) {b p : Pos} (hp : p < b) : (t.below b).level p = t.level p := by
  have hcount : (t.edges.filter fun e => e < b).countP (fun e => e ≤ p) = t.edges.countP (fun e => e ≤ p) := by
    rw [List.countP_filter]
    refine List.countP_congr fun e _ => ?_
    have hb : e ≤ p → e < b := fun he => by bv_omega
    simpa using hb
  rw [Trace.level, Trace.below, hcount]
  rfl

theorem View.buffered_seesTrace {pr : Producer} {t : Trace} (hlive : pr.ended = false) (hw : t.wf = true) :
    (View.buffered pr).SeesTrace False pr t := by
  have hrise := ((t.wf_iff).mp hw).2
  have hread : ∀ p, (p < pr.buffered ∨ pr.ended = true) → p < pr.buffered := fun p h => by simpa [hlive] using h
  have edge : ∀ p, SeenAhead False pr pr (t.nextEdge p) ((t.below pr.buffered).nextEdge p) := fun p =>
    seenAhead_filter hrise fun _ _ => rfl
  refine ⟨fun p hr => t.below_level (by simpa [Producer.readable, hlive] using hr), edge, fun a p => ?_, ?_⟩
  · refine seenAhead_filter hrise fun e he => ?_
    change (decide (p < e) && (t.below pr.buffered).level e == a) = _
    rw [t.below_level he]
  · intro _ p q hq e he
    have hb : e < pr.buffered := by
      have := hread q hq
      bv_omega
    refine ⟨fun hn => ?_, (edge p).there e⟩
    exact ((edge p).known (by rw [hn]; exact Producer.known_some.mpr hb)).1.trans hn

theorem View.buffered_sees {s : State} (hm : Memory.wf s = true) (hlive : s.producer.ended = false) :
    (View.buffered s.producer).Sees False s where
  producer := ⟨False.elim, fun _ => rfl, fun _ h => h, fun _ _ h => h, fun _ h => h, fun _ _ h => h⟩
  traces t ht := by
    simp only [Memory.wf, Bool.and_eq_true, List.all_eq_true] at hm
    exact View.buffered_seesTrace hlive (hm.2 t ht)

/-- Settles O48: the view of the buffered part agrees with everything a live capture lets an operation read. -/
theorem futureIsHidden : Obligations.FutureIsHidden := by
  intro i s hm hlive
  have h : exec i s.visible = mapNext (View.buffered s.producer).state (exec i s) := by
    by_cases hi : starts i
    · exact View.exec_start (View.buffered_presents _ _) hi
    · exact View.exec_agrees (View.buffered_sees hm hlive) hi
  cases hx : exec i s with
  | next t =>
    obtain ⟨-, -, hp, -⟩ := tracesAndEnvironmentReadOnly i s t hx
    change exec i s.visible = .next t.visible
    rw [h, hx, t.visible_eq, hp]
    rfl
  | fault f => rw [h, hx]; rfl
  | refused r => rw [h, hx]; rfl

/-! ## Views that show every trace as it is -/

/-- Another producer and other presented inputs, with every trace as it is. -/
def View.environment (pr : Producer) (f : Inputs → Inputs) : View where
  trace t := t
  producer := pr
  inputs := f

theorem View.environment_state (pr : Producer) (f : Inputs → Inputs) (s : State) :
    (View.environment pr f).state s = { s with inputs := f s.inputs, producer := pr } := by
  have hcursor : (View.environment pr f).cursor = id := rfl
  have hline : (View.environment pr f).line = id := rfl
  simp only [View.state, hcursor, hline, Option.map_id, List.map_id, id_eq]
  rfl

/-- Under the same producer nothing that is read changes. -/
theorem View.inputs_sees (s : State) (f : Inputs → Inputs) : (View.environment s.producer f).Sees False s where
  producer := ⟨False.elim, fun _ => rfl, fun _ h => h, fun _ _ h => h, fun _ h => h, fun _ _ h => h⟩
  traces _ _ := ⟨fun _ _ => rfl, fun _ => ⟨fun h => ⟨rfl, h⟩, fun _ h => h, fun _ h => h⟩,
    fun _ _ => ⟨fun h => ⟨rfl, h⟩, fun _ h => h, fun _ h => h⟩, fun _ _ _ _ _ _ => Iff.rfl⟩

/-- Settles O49: past `IDLE` the presented inputs are not read. -/
theorem presentedInputsWait : Obligations.PresentedInputsWait := by
  intro s i hp
  have h := View.exec_agrees (View.inputs_sees s fun _ => i) (fetch_not_starts hp)
  rw [View.environment_state] at h
  cases hx : blockStep s with
  | next t =>
    have hp := blockStep_producer hx
    rw [show exec (fetch s) s = .next t from hx, mapNext, View.environment_state] at h
    change exec (fetch s) { s with inputs := i } = .next { t with inputs := i }
    rw [h, ← hp]
  | fault e =>
    rw [show exec (fetch s) s = .fault e from hx] at h
    exact h
  | refused e =>
    rw [show exec (fetch s) s = .refused e from hx] at h
    exact h

/-- Two lengths of an ended capture that both hold a trace's transitions show it alike (20_memory R52). -/
theorem View.ended_seesTrace {pr : Producer} {b : Pos} {t : Trace} (hb : t.fits pr.buffered = true)
    (hb' : t.fits b = true) : (View.environment ⟨b, true⟩ id).SeesTrace False pr t := by
  have ahead : ∀ P : Pos → Bool, SeenAhead False pr ⟨b, true⟩ (t.edges.find? P) (t.edges.find? P) := by
    intro P
    have known : ∀ p : Producer, t.fits p.buffered = true → p.known (t.edges.find? P) = (t.edges.find? P).isSome := by
      intro p hp
      cases he : t.edges.find? P with
      | none => rfl
      | some e => exact decide_eq_true ((t.fits_iff _).mp hp e (List.mem_of_find?_eq_some he))
    have hsame : (⟨b, true⟩ : Producer).known (t.edges.find? P) = pr.known (t.edges.find? P) := by
      rw [known pr hb, known ⟨b, true⟩ hb']
    exact ⟨fun h => ⟨rfl, hsame.trans h⟩, fun _ h => h, fun _ h => hsame.trans h⟩
  exact ⟨fun _ _ => rfl, fun _ => ahead _, fun _ _ => ahead _, fun _ _ _ _ _ _ => Iff.rfl⟩

theorem View.ended_seesProducer {pr : Producer} {b : Pos} (he : pr.ended = true) (h0 : pr.buffered ≠ 0#64)
    (hb : b ≠ 0#64) : (View.environment ⟨b, true⟩ id).SeesProducer False pr where
  live := False.elim
  ended _ := he.symm
  readable p _ := by simpa [View.environment, Producer.readable] using hb
  unreadable _ p h := by simp [Producer.readable, he, h0] at h
  reached _ _ := .inr rfl
  unreached _ _ _ := .inr he

/-- Settles O50: with every transition of the run in both captures, nothing that is read depends on the length. -/
theorem staticLengthIrrelevant : Obligations.StaticLengthIrrelevant := by
  intro s b he h0 hb hfit
  have hsees : (View.environment ⟨b, true⟩ id).Sees False s :=
    ⟨View.ended_seesProducer he h0 hb, fun t ht => View.ended_seesTrace (hfit t ht).1 (hfit t ht).2⟩
  have hpresents : (View.environment ⟨b, true⟩ id).Presents s.inputs :=
    ⟨rfl, rfl, (Option.map_id' ..).symm, (List.map_id' _).symm⟩
  have h : exec (fetch s) ((View.environment ⟨b, true⟩ id).state s) =
      mapNext (View.environment ⟨b, true⟩ id).state (exec (fetch s) s) := by
    by_cases hi : starts (fetch s)
    · exact View.exec_start hpresents hi
    · exact View.exec_agrees hsees hi
  rw [View.environment_state] at h
  cases hx : blockStep s with
  | next t =>
    rw [show exec (fetch s) s = .next t from hx, mapNext, View.environment_state] at h
    exact h
  | fault e =>
    rw [show exec (fetch s) s = .fault e from hx] at h
    exact h
  | refused e =>
    rw [show exec (fetch s) s = .refused e from hx] at h
    exact h

/-! ## A longer capture -/

/-- What is read from a live capture is read the same from a longer one; it may hold where the longer does not. -/
theorem View.longer_sees {s : State} {p : Producer} (hlive : s.producer.ended = false)
    (hle : s.producer.buffered ≤ p.buffered) : (View.environment p id).Sees True s := by
  have hlt : ∀ q, q < s.producer.buffered → q < p.buffered := fun q hq => by bv_omega
  have hread : ∀ q, s.producer.readable q = true → q < s.producer.buffered := fun q h => by
    simpa [Producer.readable, hlive] using h
  have ahead : ∀ x : Option Pos, SeenAhead True s.producer p x x := fun x =>
    ⟨fun h => by
      obtain ⟨e, rfl, he⟩ := Producer.known_iff.mp h
      exact ⟨rfl, Producer.known_some.mpr (hlt e he)⟩, fun _ h => h, fun h => absurd trivial h⟩
  refine ⟨⟨fun _ => hlive, fun h => absurd trivial h, fun q h => ?_, fun h => absurd trivial h, fun q h => ?_,
    fun h => absurd trivial h⟩, fun t _ => ⟨fun _ _ => rfl, fun _ => ahead _, fun _ _ => ahead _, fun h => absurd trivial h⟩⟩
  · exact Producer.readable_of_lt (hlt q (hread q h))
  · exact .inl (hlt q (by simpa [hlive] using h))

/-- In a chip-select phase the turn under such a view is the turn, seen, unless it holds. -/
theorem View.turnRes_agrees_chipSelect {v : View} {weak : Prop} {s : State} (h : v.Sees weak s)
    (hp : s.phase ∈ [.qInit, .qAlign, .qEdge, .qRace, .qDeassert, .qReassert]) :
    s.turnRes.Agrees weak v.state (v.state s).turnRes := by
  simp only [List.mem_cons, List.not_mem_nil, or_false] at hp
  have hphase : (v.state s).phase = s.phase := rfl
  unfold State.turnRes
  rw [hphase]
  rcases hp with hp | hp | hp | hp | hp | hp <;> rw [hp]
  · exact View.qInit_agrees h
  · exact View.qAlign_agrees h
  · exact View.qEdge_agrees h
  · exact View.qRace_agrees h
  · exact View.qDeassert_agrees h
  · exact View.qReassert_agrees h

/-- Settles O51: a turn that is no hold is the same turn under the longer capture. -/
theorem chipSelectIgnoresSchedule : Obligations.ChipSelectIgnoresSchedule := by
  intro s t p hp hlive hle hs hne
  rw [blockStep_eq_settle] at hs
  rcases View.turnRes_agrees_chipSelect (View.longer_sees hlive hle) hp with h | ⟨-, h⟩
  · have hstep := congrArg (fun r => Res.settle r ((View.environment p id).state s)) h
    rw [View.settle_state, hs, ← blockStep_eq_settle, mapNext, View.environment_state, View.environment_state] at hstep
    exact hstep
  · rw [h] at hs
    cases hs
    exact absurd rfl hne

end Sys2Proof.Machine
end

section
/-! SUPPORT. The clauses of the machine's invariant as propositions, what each phase finds, and how a commit, a
report and a sample keep the output stream sound (42_edge_decoder R134, 43_cs_decoder R153 and R160,
44_dual_edge_decoder R173). -/

namespace Sys2Proof.Machine

/-! ## Readings of the clauses -/

theorem State.onActiveEdge_iff {s : State} : s.onActiveEdge = true ↔
    s.clk.pos ∈ s.clk.trace.edges ∧ cfgAct s.cfg = some (s.clk.trace.level s.clk.pos) ∧
      s.clk.pos < s.producer.buffered := by
  simp only [State.onActiveEdge, Bool.and_eq_true, List.contains_iff_mem, beq_iff_eq, decide_eq_true_eq, and_assoc]
  exact and_congr_right fun _ => and_congr_left fun _ => eq_comm

theorem State.asserted_iff {s : State} : s.asserted = true ↔
    ∃ c, s.cs = some c ∧ c.trace.level c.pos = false ∧ c.pos ≤ s.clk.pos ∧
      ∀ q, c.trace.nextEdge c.pos = some q → s.clk.pos < q := by
  unfold State.asserted
  cases s.cs with
  | none => simp
  | some c =>
    simp only [Bool.and_eq_true, beq_iff_eq, decide_eq_true_eq, Option.some.injEq, exists_eq_left', and_assoc]
    cases c.trace.nextEdge c.pos <;> simp [posLt]

theorem State.pendingOk_iff {s : State} : s.pendingOk = true ↔ s.progress ≤ s.clk.pos ∧
    (s.pendValid = true → s.pendStart = s.clk.pos ∧ s.clk.pos ∈ s.clk.trace.edges ∧ s.clk.pos < s.producer.buffered ∧
      s.fitsWord s.pendVal = true ∧ s.progress < s.clk.pos) := by
  unfold State.pendingOk
  cases s.pendValid with
  | false => simp
  | true =>
    simp only [if_true, Bool.and_eq_true, beq_iff_eq, List.contains_iff_mem, decide_eq_true_eq, and_assoc, true_implies]
    exact ⟨fun h => ⟨BitVec.le_of_lt h.2.2.2.2, h⟩, fun h => h.2⟩

theorem linesBefore_iff {ls : List Line} {p : Pos} : linesBefore ls p = true ↔ ∀ l ∈ ls, l.cursor.pos ≤ p := by
  simp [linesBefore]

theorem linesBefore_mono {ls : List Line} {p q : Pos} (h : linesBefore ls p = true) (hpq : p ≤ q) :
    linesBefore ls q = true :=
  linesBefore_iff.mpr fun l hl => BitVec.le_trans (linesBefore_iff.mp h l hl) hpq

theorem linesBefore_linesAt (ls : List Line) {p q : Pos} (hpq : p ≤ q) : linesBefore (linesAt ls p) q = true := by
  simp [linesBefore_iff, linesAt, hpq]

theorem State.causeOk_iff {s : State} : s.causeOk = true ↔
    (s.phase = .stopped ↔ s.cause ≠ 0#8) ∧ s.cause ≠ Cause.nonmonotonic.code := by
  rw [State.causeOk, Bool.and_eq_true, beq_iff_eq, Bool.eq_iff_iff, beq_iff_eq, bne_iff_ne, bne_iff_ne]

theorem State.acceptedOk_iff {s : State} : s.acceptedOk = true ↔ (s.running = true →
    s.phase.inVariant s.cfg = true ∧ s.cs.isSome = cfgCsEn s.cfg ∧ 1 ≤ s.data.length ∧
      s.data.length ≤ s.config.maxData) := by
  unfold State.acceptedOk
  cases s.running <;> simp [and_assoc]

theorem State.captured_of_idle {s : State} (hp : s.phase = .idle) : s.captured = s.inputs.traces := if_pos hp

theorem State.captured_of_ne_idle {s : State} (hp : s.phase ≠ .idle) : s.captured = s.traces := if_neg hp

theorem State.captureOk_iff {s : State} : s.captureOk = true ↔
    (s.producer.ended = true → ∀ t ∈ s.captured, t.fits s.producer.buffered = true) := by
  unfold State.captureOk
  cases s.producer.ended <;> simp

/-! ## The output stream -/

@[simp] theorem framesOf_append (rs qs : List Record) : framesOf (rs ++ qs) = framesOf rs ++ framesOf qs :=
  List.filterMap_append

@[simp] theorem progressOf_append (rs qs : List Record) : progressOf (rs ++ qs) = progressOf rs ++ progressOf qs :=
  List.filterMap_append

@[simp] theorem framesOf_dots (n : Nat) (p : Pos) : framesOf (dots n p) = [] := by
  simp [framesOf, dots]

@[simp] theorem progressOf_dots (n : Nat) (p : Pos) : progressOf (dots n p) = [] := by
  simp [progressOf, dots]

@[simp] theorem framesOf_marker (m : Marker) : framesOf [.marker m] = [] := rfl
@[simp] theorem progressOf_marker (m : Marker) : progressOf [.marker m] = [] := rfl
@[simp] theorem framesOf_progress (p : Pos) : framesOf [.progress p] = [] := rfl
@[simp] theorem progressOf_progress (p : Pos) : progressOf [.progress p] = [p] := rfl
@[simp] theorem framesOf_commit (f : Frame) (p : Pos) : framesOf [.frame f, .progress p] = [f] := rfl
@[simp] theorem progressOf_commit (f : Frame) (p : Pos) : progressOf [.frame f, .progress p] = [p] := rfl

theorem State.outputOk_iff {s : State} : s.outputOk = true ↔
    (∀ f ∈ framesOf s.out, s.frameOk f = true) ∧ (framesOf s.out).Pairwise (fun f g => f.endPos < g.startPos) ∧
      (∀ f ∈ framesOf s.out, f.endPos ≤ s.progress) ∧ (progressOf s.out).Pairwise (fun p q => p < q) ∧
      s.progress = (progressOf s.out).getLast?.getD 0#64 := by
  simp [State.outputOk, and_assoc]

/-- The clause reads the frames and the reports, and the configuration they are judged by. -/
theorem State.outputOk_congr {s t : State} (hf : framesOf t.out = framesOf s.out)
    (hr : progressOf t.out = progressOf s.out) (hp : t.progress = s.progress) (hc : t.cfg = s.cfg)
    (hd : t.data.length = s.data.length) : t.outputOk = s.outputOk := by
  have hframe : t.frameOk = s.frameOk := by
    funext f
    simp only [State.frameOk, State.fitsWord, hc, hd]
  simp only [State.outputOk, hf, hr, hp, hframe]

/-- Every reported position is at or before the last. -/
theorem le_getLast_of_rising {ps : List Pos} (h : ps.Pairwise (fun p q => p < q)) {p : Pos} (hp : p ∈ ps) :
    p ≤ ps.getLast?.getD 0#64 := by
  obtain ⟨l, q, rfl⟩ := List.eq_nil_or_concat ps |>.resolve_left (List.ne_nil_of_mem hp)
  rw [List.concat_eq_append] at h hp ⊢
  rw [List.getLast?_concat, Option.getD_some]
  rcases List.mem_append.mp hp with hm | hm
  · exact BitVec.le_of_lt ((List.pairwise_append.mp h).2.2 p hm q (List.mem_singleton.mpr rfl))
  · rw [List.mem_singleton.mp hm]
    exact BitVec.le_refl _

section
variable {s : State} (h : s.outputOk = true)
include h

/-- A later position goes on the rising reports. -/
theorem State.outputOk_rising {q : Pos} (hq : s.progress < q) :
    (progressOf s.out ++ [q]).Pairwise (fun p q => p < q) := by
  obtain ⟨-, -, -, hrise, hlast⟩ := State.outputOk_iff.mp h
  refine List.pairwise_append.mpr ⟨hrise, List.pairwise_singleton _ _, fun p hp r hr => ?_⟩
  have hple := le_getLast_of_rising hrise hp
  rw [← hlast] at hple
  rw [List.mem_singleton.mp hr]
  bv_omega

theorem State.outputOk_report {q : Pos} (hq : s.progress < q) :
    ({ s with out := s.out ++ [.progress q], progress := q } : State).outputOk = true := by
  obtain ⟨hframes, hdisjoint, hbefore, -, -⟩ := State.outputOk_iff.mp h
  refine State.outputOk_iff.mpr ⟨?_, ?_, ?_, ?_, ?_⟩
  · change ∀ f ∈ framesOf (s.out ++ [.progress q]), s.frameOk f = true
    simpa using hframes
  · simpa using hdisjoint
  · intro f hf
    exact BitVec.le_trans (hbefore f (by simpa using hf)) (BitVec.le_of_lt hq)
  · simpa using State.outputOk_rising h hq
  · simp

/-- A frame after everything reported, committed under its precondition (41_frame_emitter R111). -/
theorem State.outputOk_commit {v : Word} {p q : Pos} (hv : s.fitsWord v = true) (hp : s.progress < p) (hpq : p ≤ q) :
    (s.commit v p q).outputOk = true := by
  obtain ⟨hframes, hdisjoint, hbefore, -, -⟩ := State.outputOk_iff.mp h
  have hq : s.progress < q := by bv_omega
  have hseq : s.frameSeq.isSome = cfgCsEn s.cfg := by
    unfold State.frameSeq
    cases cfgCsEn s.cfg <;> rfl
  have hframe : (s.commit v p q).frameOk = s.frameOk := by
    funext f
    simp only [State.frameOk, State.fitsWord, State.commit_cfg, State.commit_data]
  have hnew : s.frameOk { value := v, startPos := p, endPos := q, seq := s.frameSeq } = true := by
    simp [State.frameOk, hpq, hseq, hv]
  refine State.outputOk_iff.mpr ⟨?_, ?_, ?_, ?_, ?_⟩ <;>
    simp only [hframe, State.commit_out, State.commit_progress, framesOf_append, framesOf_commit, progressOf_append,
      progressOf_commit]
  · exact List.forall_mem_append.mpr ⟨hframes, by simpa using hnew⟩
  · refine List.pairwise_append.mpr ⟨hdisjoint, List.pairwise_singleton _ _, fun f hf g hg => ?_⟩
    have hfp := hbefore f hf
    rw [List.mem_singleton.mp hg]
    exact (by bv_omega : f.endPos < p)
  · refine List.forall_mem_append.mpr ⟨fun f hf => BitVec.le_trans (hbefore f hf) (BitVec.le_of_lt hq), ?_⟩
    simp
  · exact State.outputOk_rising h hq
  · simp

end

theorem State.seqOk_iff {s : State} : s.seqOk = true ↔ (s.newAssert = true → s.seq = 0#64) := by
  unfold State.seqOk
  cases s.newAssert <;> simp

theorem State.seqOk_commit {s : State} (h : s.seqOk = true) (v : Word) (p q : Pos) : (s.commit v p q).seqOk = true := by
  rw [State.seqOk_iff] at h ⊢
  rw [State.commit_newAssert, State.commit_seq]
  cases cfgCsEn s.cfg with
  | true => simp
  | false => simpa using h

/-! ## What each phase finds -/

section
variable {s : State} (hi : s.Inv)
include hi

theorem State.Inv.clk_wf : s.clk.trace.wf = true := State.clk_wf_of_memory_wf hi.traces

theorem State.Inv.eSeek_ahead (hp : s.phase = .eSeek) : ∀ e ∈ s.clk.trace.edges, s.clk.pos < e → s.progress < e := by
  have h := hi.phase
  simp only [State.phaseOk, hp, List.all_eq_true, Bool.or_eq_true, decide_eq_true_eq] at h
  exact fun e he hlt => (h e he).resolve_left (BitVec.not_le.mpr hlt)

theorem State.Inv.eEdge_on (hp : s.phase = .eEdge) : s.onActiveEdge = true ∧ s.progress < s.clk.pos := by
  have h := hi.phase
  simpa only [State.phaseOk, hp, Bool.and_eq_true, decide_eq_true_eq] using h

theorem State.Inv.eProbe_on (hp : s.phase = .eProbe) : s.onActiveEdge = true ∧ s.progress < s.clk.pos ∧
    s.config.estClamp < s.estLatch.toNat := by
  have h := hi.phase
  simp only [State.phaseOk, hp, Bool.and_eq_true, decide_eq_true_eq] at h
  obtain ⟨⟨⟨⟨hon, hlt⟩, -⟩, -⟩, he⟩ := h
  exact ⟨hon, hlt, he⟩

theorem State.Inv.qInit_start (hp : s.phase = .qInit) :
    s.clk.pos = 0#64 ∧ (∀ c, s.cs = some c → c.pos = 0#64) ∧ s.progress = 0#64 := by
  have h := hi.phase
  simp only [State.phaseOk, hp, Bool.and_eq_true, beq_iff_eq, Option.all_eq_true] at h
  exact ⟨h.1.1, fun c hc => h.1.2 c hc, h.2⟩

theorem State.Inv.qAlign_asserted (hp : s.phase = .qAlign) : s.asserted = true ∧ s.progress ≤ s.clk.pos := by
  have h := hi.phase
  simpa only [State.phaseOk, hp, Bool.and_eq_true, decide_eq_true_eq] using h

theorem State.Inv.qEdge_on (hp : s.phase = .qEdge) : s.onActiveEdge = true ∧ s.progress < s.clk.pos := by
  have h := hi.phase
  simp only [State.phaseOk, hp, Bool.and_eq_true, decide_eq_true_eq] at h
  exact ⟨h.1.2, h.2⟩

theorem State.Inv.qRace_on (hp : s.phase = .qRace) : s.onActiveEdge = true ∧ s.progress < s.clk.pos := by
  have h := hi.phase
  simp only [State.phaseOk, hp, Bool.and_eq_true, decide_eq_true_eq] at h
  obtain ⟨⟨⟨⟨-, hon⟩, hlt⟩, -⟩, -⟩ := h
  exact ⟨hon, hlt⟩

theorem State.Inv.qDeassert_edge {c : Cursor} (hp : s.phase = .qDeassert) (hc : s.cs = some c) :
    ∃ q, c.trace.nextEdge c.pos = some q ∧ q < s.producer.buffered ∧ s.progress < q := by
  have h := hi.phase
  simp only [State.phaseOk, hp, hc, Bool.and_eq_true] at h
  obtain ⟨-, hk, hlt⟩ := h
  obtain ⟨q, hq, hb⟩ := Producer.known_iff.mp hk
  exact ⟨q, hq, hb, by simpa [hq, posLt] using hlt⟩

theorem State.Inv.qReassert_cursor {c : Cursor} (hp : s.phase = .qReassert) (hc : s.cs = some c) :
    c.trace.level c.pos = true ∧ s.clk.pos ≤ c.pos ∧ s.progress ≤ c.pos := by
  have h := hi.phase
  simp only [State.phaseOk, hp, hc, Bool.and_eq_true, decide_eq_true_eq] at h
  exact ⟨h.1.1, h.1.2, h.2⟩

theorem State.Inv.dHead_pending (hp : s.phase = .dHead) : s.pendingOk = true := by
  have h := hi.phase
  simpa only [State.phaseOk, hp] using h

theorem State.Inv.dAdvance_more (hp : s.phase = .dAdvance) (hv : s.pendValid = true) :
    s.clk.moreBuffered s.producer = true := by
  have h := hi.phase
  simp only [State.phaseOk, hp, hv, Bool.and_eq_true] at h
  exact h.2

theorem State.Inv.cause_eq_zero (hp : s.phase ≠ .stopped) : s.cause = 0#8 := by
  have h := (State.causeOk_iff.mp hi.cause).1
  exact not_not.mp (mt h.mpr hp)

theorem State.Inv.accepted_running (hr : s.running = true) :
    s.phase.inVariant s.cfg = true ∧ s.cs.isSome = cfgCsEn s.cfg ∧ 1 ≤ s.data.length ∧
      s.data.length ≤ s.config.maxData :=
  State.acceptedOk_iff.mp hi.accepted hr

/-- Once the capture has ended it holds every transition the run reads, in `IDLE` none (20_memory R52). -/
theorem State.Inv.traces_fit (he : s.producer.ended = true) : ∀ t ∈ s.traces, t.fits s.producer.buffered = true := by
  by_cases hp : s.phase = .idle
  · obtain ⟨hclk, hcs, hdata⟩ := hi.idle_latched hp
    intro t ht
    have ht : t = Trace.quiet := by simpa [State.traces, hclk, hcs, hdata, Trace.cursor] using ht
    rw [ht]
    rfl
  · have h := State.captureOk_iff.mp hi.capture he
    rwa [State.captured_of_ne_idle hp] at h

end

end Sys2Proof.Machine
end

section
/-! SUPPORT. How the block's turn ends in a state that meets the invariant: it completes, it waits for an edge,
or a width probe holds or overflows (60_exceptions R205 to R207). -/

namespace Sys2Proof.Machine

/-! ## What the variant of a phase fixes (30_encoding R81, R84) -/

theorem State.running_iff {s : State} : s.running = true ↔ s.phase ≠ .idle ∧ s.phase.final = false := by
  simp [State.running]

theorem Phase.cfgAct_of_inVariant {p : Phase} {w : BitVec 32} (h : p.inVariant w = true)
    (hp : p ∈ [.eSeek, .eEdge, .eProbe, .qInit, .qAlign, .qEdge, .qRace, .qDeassert, .qReassert]) :
    ∃ a, cfgAct w = some a := by
  have hw : w = 0#32 ∨ w = 1#32 ∨ w = 4#32 ∨ w = 5#32 := by
    cases p <;> simp_all [Phase.inVariant] <;> tauto
  rcases hw with rfl | rfl | rfl | rfl
  · exact ⟨true, rfl⟩
  · exact ⟨false, rfl⟩
  · exact ⟨true, rfl⟩
  · exact ⟨false, rfl⟩

theorem Phase.cfgCsEn_of_inVariant {p : Phase} {w : BitVec 32} (h : p.inVariant w = true)
    (hp : p ∈ [.qInit, .qAlign, .qEdge, .qRace, .qDeassert, .qReassert]) : cfgCsEn w = true := by
  have hw : w = 4#32 ∨ w = 5#32 := by
    cases p <;> simp_all [Phase.inVariant]
  rcases hw with rfl | rfl <;> rfl

section
variable {s : State} (hi : s.Inv)
include hi

theorem State.Inv.act
    (hp : s.phase ∈ [.eSeek, .eEdge, .eProbe, .qInit, .qAlign, .qEdge, .qRace, .qDeassert, .qReassert]) :
    ∃ a, cfgAct s.cfg = some a := by
  have hr : s.running = true := State.running_iff.mpr (by revert hp; cases s.phase <;> simp [Phase.final])
  exact Phase.cfgAct_of_inVariant (hi.accepted_running hr).1 hp

theorem State.Inv.chipSelect (hp : s.phase ∈ [.qInit, .qAlign, .qEdge, .qRace, .qDeassert, .qReassert]) :
    ∃ c, s.cs = some c := by
  have hr : s.running = true := State.running_iff.mpr (by revert hp; cases s.phase <;> simp [Phase.final])
  obtain ⟨hv, hcs, -⟩ := hi.accepted_running hr
  exact Option.isSome_iff_exists.mp (hcs.trans (Phase.cfgCsEn_of_inVariant hv hp))

/-- After the end of the capture the clock's next edge is buffered (20_memory R52). -/
theorem State.Inv.clk_edge_lt {e : Pos} (he : s.producer.ended = true) (hm : e ∈ s.clk.trace.edges) :
    e < s.producer.buffered :=
  ((Trace.fits_iff _ _).mp (hi.traces_fit he _ List.mem_cons_self)) e hm

/-- An edge in a settled window is buffered: the window is, or the capture is complete. -/
theorem State.Inv.window_edge_lt {e n : Pos}
    (hb : s.producer.ended = true ∨ s.clk.pos.toNat + n.toNat < s.producer.buffered.toNat)
    (he : s.clk.trace.nextEdge s.clk.pos = some e) (hle : e.toNat ≤ s.clk.pos.toNat + n.toNat) :
    e < s.producer.buffered := by
  rcases hb with hended | hb
  · exact hi.clk_edge_lt hended (Trace.nextEdge_some he).1
  · exact BitVec.lt_def.mpr (Nat.lt_of_le_of_lt hle hb)

end

/-! ## The phases -/

theorem State.finishReal_ok {s : State} {w : Word} {p i : Pos} (hi : s.clk.trace.nextEdge s.clk.pos = some i)
    (hb : i < s.producer.buffered) : ∃ t, s.finishReal w p = .ok t := by
  by_cases hk : s.producer.known (s.clk.trace.nextEdge i) = true
  · obtain ⟨a, ha, hab⟩ := Producer.known_iff.mp hk
    exact ⟨_, State.finishReal_active hi hb ha hab⟩
  · exact ⟨_, State.finishReal_inactive hi hb (Bool.not_eq_true _ ▸ hk)⟩

/-- The ways the block's turn ends in a state that meets the invariant. -/
inductive State.TurnEnds (s : State) : Prop
  | completes (t : State) (h : s.turnRes = .ok t)
  | waits (h : s.turnRes = s.producer.wait) (hp : s.phase ∈ [.eSeek, .qInit, .qAlign, .qRace, .qReassert, .dAdvance])
      (hv : s.phase = .dAdvance → s.pendValid = false)
  | probes (hp : s.phase ∈ [.eProbe, .dProbe]) (h : s.turnRes = .hold ∨ s.turnRes = .raise .posOverflow)

/-- A race is settled by one of its two edges, or both are waited for (43_cs_decoder R152, R155). -/
theorem Producer.race_ends (pr : Producer) (a c : Option Pos) :
    (∃ p, a = some p ∧ p < pr.buffered ∧ ∀ q, c = some q → p < q) ∨
      (∃ q, c = some q ∧ q < pr.buffered ∧ ∀ p, a = some p → q ≤ p) ∨ (pr.known a = false ∧ pr.known c = false) := by
  cases hk : pr.known (posMin a c) with
  | true =>
    have hr : pr.race a c = .ok (posLt a c) := by rw [Producer.race, if_pos hk]
    cases hlt : posLt a c with
    | true => exact .inl (Producer.race_clock (hr.trans (congrArg Res.ok hlt)))
    | false => exact .inr (.inl (Producer.race_chipSelect (hr.trans (congrArg Res.ok hlt))))
  | false => exact .inr (.inr (by simpa [Producer.known_posMin] using hk))

section
variable {s : State} (hi : s.Inv)
include hi

theorem State.Inv.eSeek_ends (hp : s.phase = .eSeek) : (∃ t, s.eSeek = .ok t) ∨ s.eSeek = s.producer.wait := by
  obtain ⟨a, ha⟩ := hi.act (by simp [hp])
  by_cases hk : s.producer.known (s.clk.trace.nextActive a s.clk.pos) = true
  · obtain ⟨e, he, hb⟩ := Producer.known_iff.mp hk
    exact .inl ⟨_, State.eSeek_buffered hi.traces ha he hb⟩
  · exact .inr (State.eSeek_waits hi.traces ha (Bool.not_eq_true _ ▸ hk))

theorem State.Inv.eEdge_ends (hp : s.phase = .eEdge) : ∃ t, s.eEdge = .ok t := by
  obtain ⟨-, ha, hb⟩ := State.onActiveEdge_iff.mp (hi.eEdge_on hp).1
  have hr := Producer.readable_of_lt hb
  by_cases hk : s.producer.known (s.clk.trace.nextEdge s.clk.pos) = true
  · obtain ⟨i, he, hib⟩ := Producer.known_iff.mp hk
    rw [State.eEdge_more ha hi.lines hr hk]
    exact State.finishReal_ok (s := s.sampledAtClk _) he hib
  · exact ⟨_, State.eEdge_last ha hi.lines hr (Bool.not_eq_true _ ▸ hk)⟩

theorem State.Inv.eProbe_ends (hp : s.phase = .eProbe) :
    (∃ t, s.eProbe = .ok t) ∨ s.eProbe = .hold ∨ s.eProbe = .raise .posOverflow := by
  obtain ⟨-, -, hc⟩ := hi.eProbe_on hp
  obtain ⟨hs, -⟩ := hi.eProbe_latches hp
  by_cases hf : s.clk.pos.toNat + s.estLatch.toNat < 2 ^ 64
  · by_cases hb : s.producer.ended = true ∨ s.clk.pos.toNat + s.estLatch.toNat < s.producer.buffered.toNat
    · by_cases hno : ∀ i, s.clk.trace.nextEdge s.clk.pos = some i → s.clk.pos.toNat + s.estLatch.toNat < i.toNat
      · exact .inl ⟨_, State.eProbe_provisional hc hs hf hb hno⟩
      · obtain ⟨i, he, hle⟩ := by simpa using hno
        rw [State.eProbe_crosses hc hs hf he hb hle]
        exact .inl (State.finishReal_ok he (hi.window_edge_lt hb he hle))
    · obtain ⟨hl, hb⟩ := not_or.mp hb
      rw [State.eProbe_fits hc hs hf, Cursor.wouldCross_holds hf (by simpa using hl) (Nat.not_lt.mp hb)]
      exact .inr (.inl rfl)
  · exact .inr (.inr (State.eProbe_overflow (.inr (Nat.not_lt.mp hf))))

theorem State.Inv.qInit_ends (hp : s.phase = .qInit) : (∃ t, s.qInit = .ok t) ∨ s.qInit = s.producer.wait := by
  obtain ⟨c, hc⟩ := hi.chipSelect (by simp [hp])
  obtain ⟨hzero, -, -⟩ := hi.qInit_start hp
  by_cases hr : s.producer.readable c.pos = true
  · cases hl : c.trace.level c.pos with
    | false => exact .inl ⟨_, State.qInit_low hc hr hl⟩
    | true =>
      by_cases hk : s.producer.known (c.trace.nextEdge c.pos) = true
      · obtain ⟨f, hf, hb⟩ := Producer.known_iff.mp hk
        rw [State.qInit_high hc hr hl, Cursor.advance_buffered hf hb, Res.ok_bind,
          State.syncClock_buffered hb (hzero ▸ BitVec.le_def.mpr (Nat.zero_le _))]
        exact .inl ⟨_, rfl⟩
      · exact .inr (State.qInit_waits hc (.inr ⟨hl, Bool.not_eq_true _ ▸ hk⟩))
  · exact .inr (State.qInit_waits hc (.inl (Bool.not_eq_true _ ▸ hr)))

theorem State.Inv.qAlign_ends (hp : s.phase = .qAlign) : (∃ t, s.qAlign = .ok t) ∨ s.qAlign = s.producer.wait := by
  obtain ⟨a, ha⟩ := hi.act (by simp [hp])
  obtain ⟨c, hc⟩ := hi.chipSelect (by simp [hp])
  rw [State.qAlign_eq ha hc]
  rcases s.producer.race_ends (s.clk.trace.nextActive a s.clk.pos) (c.trace.nextEdge c.pos) with
    ⟨p, he, hb, hq⟩ | ⟨q, he, hb, hq⟩ | ⟨hka, hkc⟩
  · rw [Producer.race_of_clock he hb hq, Res.ok_bind, if_pos rfl, he, State.toActiveEdge_buffered hb,
      if_neg (BitVec.not_lt.mpr (BitVec.le_of_lt (Trace.nextActive_some he).2.1))]
    exact .inl ⟨_, rfl⟩
  · rw [Producer.race_of_chipSelect he hb hq]
    exact .inl ⟨_, rfl⟩
  · rw [Producer.race_waits hka hkc]
    exact .inr (Producer.wait_bind _ _)

theorem State.Inv.qEdge_ends (hp : s.phase = .qEdge) : ∃ t, s.qEdge = .ok t := by
  obtain ⟨-, ha, hb⟩ := State.onActiveEdge_iff.mp (hi.qEdge_on hp).1
  exact ⟨_, State.qEdge_completes ha hi.lines (Producer.readable_of_lt hb)⟩

theorem State.Inv.qRace_ends (hp : s.phase = .qRace) : (∃ t, s.qRace = .ok t) ∨ s.qRace = s.producer.wait := by
  obtain ⟨a, ha⟩ := hi.act (by simp [hp])
  obtain ⟨c, hc⟩ := hi.chipSelect (by simp [hp])
  obtain ⟨-, hs, -⟩ := hi.qRace_latches hp
  rcases s.producer.race_ends (s.clk.trace.nextActive a s.sLatch) (c.trace.nextEdge c.pos) with
    ⟨p, he, hb, hq⟩ | ⟨q, he, hb, hq⟩ | ⟨hka, hkc⟩
  · have hlt : s.clk.pos < p := hs ▸ (Trace.nextActive_some he).2.1
    exact .inl ⟨_, (State.qRace_clock ha hc he hb hq).trans (if_neg (BitVec.not_lt.mpr (BitVec.le_of_lt hlt)))⟩
  · rw [State.qRace_eq ha hc, Producer.race_of_chipSelect he hb hq]
    exact .inl ⟨_, rfl⟩
  · rw [State.qRace_eq ha hc, Producer.race_waits hka hkc]
    exact .inr (Producer.wait_bind _ _)

theorem State.Inv.qDeassert_ends (hp : s.phase = .qDeassert) : ∃ t, s.qDeassert = .ok t := by
  obtain ⟨c, hc⟩ := hi.chipSelect (by simp [hp])
  obtain ⟨q, hq, hb, -⟩ := hi.qDeassert_edge hp hc
  rw [State.qDeassert, State.csCursor_eq_ok.mpr hc, Res.ok_bind, Cursor.advance_buffered hq hb]
  exact ⟨_, rfl⟩

theorem State.Inv.qReassert_ends (hp : s.phase = .qReassert) :
    (∃ t, s.qReassert = .ok t) ∨ s.qReassert = s.producer.wait := by
  obtain ⟨c, hc⟩ := hi.chipSelect (by simp [hp])
  obtain ⟨-, hle, -⟩ := hi.qReassert_cursor hp hc
  rw [State.qReassert_eq hc]
  by_cases hk : s.producer.known (c.trace.nextEdge c.pos) = true
  · obtain ⟨f, hf, hb⟩ := Producer.known_iff.mp hk
    have hcf : s.clk.pos ≤ f := BitVec.le_trans hle (BitVec.le_of_lt (Trace.nextEdge_some hf).2)
    rw [Cursor.advance_buffered hf hb, Res.ok_bind, State.syncClock_buffered hb hcf]
    exact .inl ⟨_, rfl⟩
  · rw [Cursor.advance_waits (Bool.not_eq_true _ ▸ hk)]
    exact .inr (Producer.wait_bind _ _)

/-- The next clock edge is past every line, so closing and opening there completes (44_dual_edge_decoder R173). -/
theorem State.Inv.toRealEdge_ok {e : Pos} (he : s.clk.trace.nextEdge s.clk.pos = some e)
    (hb : e < s.producer.buffered) : ∃ t, s.toRealEdge = .ok t :=
  ⟨_, State.toRealEdge_completes he hb (linesBefore_mono hi.lines (BitVec.le_of_lt (Trace.nextEdge_some he).2))⟩

theorem State.Inv.dAdvance_ends (hp : s.phase = .dAdvance) :
    (∃ t, s.toRealEdge = .ok t) ∨ s.toRealEdge = s.producer.wait ∧ s.pendValid = false := by
  by_cases hk : s.producer.known (s.clk.trace.nextEdge s.clk.pos) = true
  · obtain ⟨e, he, hb⟩ := Producer.known_iff.mp hk
    exact .inl (hi.toRealEdge_ok he hb)
  · refine .inr ⟨State.toRealEdge_waits (Bool.not_eq_true _ ▸ hk), ?_⟩
    exact Bool.not_eq_true _ ▸ mt (hi.dAdvance_more hp) hk

theorem State.Inv.dProbe_ends :
    (∃ t, s.dProbe = .ok t) ∨ s.dProbe = .hold ∨ s.dProbe = .raise .posOverflow := by
  by_cases hf : s.clk.pos.toNat + s.estLatch.toNat < 2 ^ 64
  · by_cases hb : s.producer.ended = true ∨ s.clk.pos.toNat + s.estLatch.toNat < s.producer.buffered.toNat
    · by_cases hno : ∀ i, s.clk.trace.nextEdge s.clk.pos = some i → s.clk.pos.toNat + s.estLatch.toNat < i.toNat
      · exact .inl ⟨_, State.dProbe_provisional hf hb hno⟩
      · obtain ⟨i, he, hle⟩ := by simpa using hno
        rw [State.dProbe_crosses hf hb he hle]
        exact .inl (hi.toRealEdge_ok he (hi.window_edge_lt hb he hle))
    · obtain ⟨hl, hb⟩ := not_or.mp hb
      rw [State.dProbe, Cursor.wouldCross_holds hf (by simpa using hl) (Nat.not_lt.mp hb)]
      exact .inr (.inl rfl)
  · rw [State.dProbe, Cursor.wouldCross_overflow (Nat.not_lt.mp hf)]
    exact .inr (.inr rfl)

/-- Every turn of the block ends in one of these ways. -/
theorem State.Inv.turnEnds : s.TurnEnds := by
  have wait : ∀ {r : Res State}, s.turnRes = r → s.phase ∈ [.eSeek, .qInit, .qAlign, .qRace, .qReassert] →
      (∃ t, r = .ok t) ∨ r = s.producer.wait → s.TurnEnds := by
    rintro r hr hp (⟨t, rfl⟩ | rfl)
    · exact .completes t hr
    · exact .waits hr (by simp at hp ⊢; tauto) (fun h => by simp [h] at hp)
  have complete : ∀ {r : Res State}, s.turnRes = r → (∃ t, r = .ok t) → s.TurnEnds := by
    rintro r hr ⟨t, rfl⟩
    exact .completes t hr
  have probe : ∀ {r : Res State}, s.turnRes = r → s.phase ∈ [.eProbe, .dProbe] →
      (∃ t, r = .ok t) ∨ r = .hold ∨ r = .raise .posOverflow → s.TurnEnds := by
    rintro r rfl hp (⟨t, ht⟩ | h)
    · exact .completes t ht
    · exact .probes hp h
  cases hp : s.phase with
  | idle | dHead | done | cancelled | stopped => exact complete (by rw [State.turnRes, hp]) ⟨_, rfl⟩
  | eSeek => exact wait (by rw [State.turnRes, hp]) (by simp [hp]) (hi.eSeek_ends hp)
  | eEdge => exact complete (by rw [State.turnRes, hp]) (hi.eEdge_ends hp)
  | eProbe => exact probe (by rw [State.turnRes, hp]) (by simp [hp]) (hi.eProbe_ends hp)
  | qInit => exact wait (by rw [State.turnRes, hp]) (by simp [hp]) (hi.qInit_ends hp)
  | qAlign => exact wait (by rw [State.turnRes, hp]) (by simp [hp]) (hi.qAlign_ends hp)
  | qEdge => exact complete (by rw [State.turnRes, hp]) (hi.qEdge_ends hp)
  | qRace => exact wait (by rw [State.turnRes, hp]) (by simp [hp]) (hi.qRace_ends hp)
  | qDeassert => exact complete (by rw [State.turnRes, hp]) (hi.qDeassert_ends hp)
  | qReassert => exact wait (by rw [State.turnRes, hp]) (by simp [hp]) (hi.qReassert_ends hp)
  | dAdvance =>
    rcases hi.dAdvance_ends hp with h | ⟨h, hv⟩
    · exact complete (by rw [State.turnRes, hp]) h
    · exact .waits ((by rw [State.turnRes, hp] : s.turnRes = s.toRealEdge).trans h) (by simp [hp]) fun _ => hv
  | dProbe => exact probe (by rw [State.turnRes, hp]) (by simp [hp]) hi.dProbe_ends

end

/-! ## The statements -/

theorem Phase.code_injective : Function.Injective Phase.code := by
  have hinverse : Function.LeftInverse Phase.ofCode Phase.code := fun p => by cases p <;> rfl
  exact hinverse.injective

/-- The operation fetched names the phase (30_encoding R84). -/
theorem phase_of_fetch {s : State} {p : Phase} (h : fetch s = decodePhase p.code) : s.phase = p := by
  have hcode := congrArg encode h
  rw [fetch, (encode_decodePhase _).1, (encode_decodePhase _).1, Option.some.injEq, Code.phase.injEq] at hcode
  exact Phase.code_injective hcode

theorem State.turnRes_completes {s t : State} (h : s.turnRes = .ok t) : s.Completes (fetch s) t := by
  refine State.opRes_cases (Eq.trans ?_ h)
  unfold fetch State.turnRes
  cases s.phase <;> rfl

/-- A completed turn of a run in progress goes on, and where it never holds it changes the state: it samples
and latches, or moves a cursor, or leaves its phase (60_exceptions R207). -/
theorem State.Completes.ne {s t : State} (h : s.Completes (fetch s) t)
    (hp : s.phase ∈ [.eEdge, .qEdge, .qDeassert, .dHead, .dAdvance]) : t ≠ s := by
  intro hts
  have hphase : t.phase = s.phase := by rw [hts]
  have hclk : t.clk.pos = s.clk.pos := by rw [hts]
  have hi : fetch s ∈ [.phEEdge, .phQEdge, .phQDeassert, .phDHead, .phDAdvance] := by
    simp only [List.mem_cons, List.not_mem_nil, or_false] at hp
    rcases hp with hp | hp | hp | hp | hp <;> rw [fetch, hp] <;> decide
  generalize hf : fetch s = i at h hi
  cases h with
  | eEdgeReal ha hl hend =>
    have hlt : s.clk.pos < t.clk.pos := hend.cursors.1
    rw [hclk] at hlt
    exact BitVec.lt_irrefl _ hlt
  | realEdge _ he =>
    have hlt := (Trace.nextEdge_some he).2
    rw [(State.reopenedAt_cursors _ _ _).1] at hclk
    exact absurd hclk.symm (BitVec.ne_of_lt hlt)
  | dHeadAdvance => exact absurd (hphase.trans (phase_of_fetch (p := .dHead) hf)) (by simp)
  | eEdgeLast | qEdge | qDeassert | dHeadProbe =>
    rw [← hphase] at hp
    simp at hp
  | start hs => exact absurd hs (by simp at hi; rcases hi with rfl | rfl | rfl | rfl | rfl <;> simp [encode])
  | final hs => rcases hs with rfl | rfl | rfl <;> simp at hi
  | _ => simp at hi

/-- Past `IDLE` a completed turn that leaves a final phase found it, and changed nothing (60_exceptions R210). -/
theorem State.turnRes_final {s t : State} (h : s.turnRes = .ok t) (hp : s.phase ≠ .idle)
    (hf : t.phase.final = true) : t = s := by
  cases hs : s.phase.final with
  | true =>
    have hb := blockStep_final hs
    rw [blockStep_eq_settle, h] at hb
    cases hb
    rfl
  | false => rw [(State.turnRes_completes h).phase_running (fetch_not_starts hp) hs] at hf; cases hf

/-- Settles O46: the turn always ends; it stops a run only in a width probe that overflows, and where it must
not hold it completes. -/
theorem holdPointsAndNoStuckStep : Obligations.HoldPointsAndNoStuckStep := by
  intro s hi
  rw [blockStep_eq_settle]
  rcases hi.turnEnds with ⟨t, h⟩ | ⟨h, hp, hv⟩ | ⟨hp, h⟩
  · rw [h]
    refine ⟨t, rfl, fun hrun ht => ?_, fun hp => (State.turnRes_completes h).ne ?_⟩
    · have hts := State.turnRes_final h (by simp_all) (by rw [ht]; rfl)
      rw [hts] at ht
      simp [ht] at hrun
    · simp only [List.mem_cons, List.not_mem_nil, or_false] at hp ⊢
      tauto
  · have hnohold : ¬(s.phase ∈ [.eEdge, .qEdge, .qDeassert, .dHead] ∨ s.phase = .dAdvance ∧ s.pendValid = true) := by
      rintro (hq | ⟨hq, hpend⟩)
      · revert hp hq
        cases s.phase <;> simp
      · rw [hv hq] at hpend
        cases hpend
    rw [h, Producer.wait]
    cases s.producer.ended with
    | true => exact ⟨s.finish, rfl, nofun, fun hq => absurd hq hnohold⟩
    | false => exact ⟨s, rfl, fun hrun ht => by simp [ht] at hrun, fun hq => absurd hq hnohold⟩
  · have hnohold : ¬(s.phase ∈ [.eEdge, .qEdge, .qDeassert, .dHead] ∨ s.phase = .dAdvance ∧ s.pendValid = true) := by
      revert hp
      cases s.phase <;> simp
    rcases h with h | h <;> rw [h]
    · exact ⟨s, rfl, fun hrun ht => by simp [ht] at hrun, fun hq => absurd hq hnohold⟩
    · exact ⟨s.stop .posOverflow, rfl, fun _ _ => ⟨hp, rfl⟩, fun hq => absurd hq hnohold⟩

theorem State.start_phase_ne_done (s : State) (w : BitVec 32) : (s.start w).phase ≠ .done := by
  rcases s.start_cases w with ⟨c, -, h⟩ | ⟨-, h⟩ <;> rw [h]
  · exact nofun
  · change cfgFirstPhase w ≠ .done
    unfold cfgFirstPhase
    split_ifs <;> exact nofun

/-- Settles O47: only a wait at the end of the capture ends a run, and it waits in these phases alone. -/
theorem doneOnlyAtCaptureEnd : Obligations.DoneOnlyAtCaptureEnd := by
  intro s t hi hb ht hs
  by_cases hidle : s.phase = .idle
  · rw [blockStep_idle hidle] at hb
    cases hb
    exact absurd ht (s.start_phase_ne_done _)
  rw [blockStep_eq_settle] at hb
  rcases hi.turnEnds with ⟨u, h⟩ | ⟨h, hp, hv⟩ | ⟨hp, h⟩
  · rw [h] at hb
    cases hb
    exact absurd ((State.turnRes_final h hidle (by rw [ht]; rfl)) ▸ ht) hs
  · refine ⟨?_, hp, hv⟩
    by_contra hended
    rw [h, Producer.wait, if_neg hended] at hb
    cases hb
    exact hs ht
  · rcases h with h | h <;> rw [h] at hb <;> cases hb
    · exact absurd ht hs
    · cases ht

end Sys2Proof.Machine
end

section
/-! SUPPORT. Every completed turn of a run keeps the clauses of the invariant that are not the frame's: the line
cursors, what the next phase finds, the output stream and the sequence index (42_edge_decoder R134,
43_cs_decoder R153 and R160, 44_dual_edge_decoder R173 to R176). -/

namespace Sys2Proof.Machine

/-! ## How a phase's clause is met -/

section
variable {t : State}

theorem State.phaseOk_eSeek (hp : t.phase = .eSeek) (h : ∀ e ∈ t.clk.trace.edges, t.clk.pos < e → t.progress < e) :
    t.phaseOk = true := by
  simp only [State.phaseOk, hp, List.all_eq_true, Bool.or_eq_true, decide_eq_true_eq]
  exact fun e he => or_iff_not_imp_left.mpr fun hle => h e he (BitVec.not_le.mp hle)

theorem State.phaseOk_eEdge (hp : t.phase = .eEdge) (hon : t.onActiveEdge = true) (hlt : t.progress < t.clk.pos) :
    t.phaseOk = true := by
  simp [State.phaseOk, hp, hon, hlt]

theorem State.phaseOk_eProbe (hp : t.phase = .eProbe) (hon : t.onActiveEdge = true) (hlt : t.progress < t.clk.pos)
    (hs : t.sLatch = t.clk.pos) (hw : t.fitsWord t.wLatch = true) (he : t.config.estClamp < t.estLatch.toNat) :
    t.phaseOk = true := by
  simp [State.phaseOk, hp, hon, hlt, hs, hw, he]

theorem State.phaseOk_qInit (hp : t.phase = .qInit) (hclk : t.clk.pos = 0#64) (hcs : ∀ c ∈ t.cs, c.pos = 0#64)
    (hprog : t.progress = 0#64) : t.phaseOk = true := by
  simpa [State.phaseOk, hp, hclk, hprog, Option.all_eq_true] using hcs

theorem State.phaseOk_qAlign (hp : t.phase = .qAlign) (ha : t.asserted = true) (hle : t.progress ≤ t.clk.pos) :
    t.phaseOk = true := by
  simp [State.phaseOk, hp, ha, hle]

theorem State.phaseOk_qEdge (hp : t.phase = .qEdge) (ha : t.asserted = true) (hon : t.onActiveEdge = true)
    (hlt : t.progress < t.clk.pos) : t.phaseOk = true := by
  simp [State.phaseOk, hp, ha, hon, hlt]

theorem State.phaseOk_qRace (hp : t.phase = .qRace) (ha : t.asserted = true) (hon : t.onActiveEdge = true)
    (hlt : t.progress < t.clk.pos) (hs : t.sLatch = t.clk.pos) (hw : t.fitsWord t.wLatch = true) :
    t.phaseOk = true := by
  simp [State.phaseOk, hp, ha, hon, hlt, hs, hw]

theorem State.phaseOk_qDeassert {c : Cursor} {q : Pos} (hp : t.phase = .qDeassert) (ha : t.asserted = true)
    (hc : t.cs = some c) (hq : c.trace.nextEdge c.pos = some q) (hb : q < t.producer.buffered)
    (hlt : t.progress < q) : t.phaseOk = true := by
  simp [State.phaseOk, hp, ha, hc, hq, posLt, hlt, Producer.known, hb]

theorem State.phaseOk_qReassert {c : Cursor} (hp : t.phase = .qReassert) (hc : t.cs = some c)
    (hl : c.trace.level c.pos = true) (hclk : t.clk.pos ≤ c.pos) (hle : t.progress ≤ c.pos) : t.phaseOk = true := by
  simp [State.phaseOk, hp, hc, hl, hclk, hle]

theorem State.phaseOk_dHead (hp : t.phase = .dHead) (h : t.pendingOk = true) : t.phaseOk = true := by
  simp [State.phaseOk, hp, h]

theorem State.phaseOk_dAdvance (hp : t.phase = .dAdvance) (h : t.pendingOk = true)
    (hm : t.pendValid = true → t.clk.moreBuffered t.producer = true) : t.phaseOk = true := by
  cases hv : t.pendValid <;> simp_all [State.phaseOk]

theorem State.phaseOk_dProbe (hp : t.phase = .dProbe) (h : t.pendingOk = true) (hv : t.pendValid = true)
    (he : t.config.estClamp < t.estLatch.toNat) : t.phaseOk = true := by
  simp [State.phaseOk, hp, h, hv, he]

end

/-- What a turn leaves of those clauses. -/
structure State.StepOk (s t : State) : Prop where
  running : t.running = true
  variant : t.phase.inVariant s.cfg = true
  lines : linesBefore t.data t.clk.pos = true
  phase : t.phaseOk = true
  output : t.outputOk = true
  seq : t.seqOk = true

/-! ## The edge-gated decoder -/

theorem State.sampledAtClk_outputOk (s : State) (a : Level) : (s.sampledAtClk a).outputOk = s.outputOk :=
  State.outputOk_congr (by simp [State.sampledAtClk]) (by simp [State.sampledAtClk]) rfl rfl
    (linesAt_length s.data s.clk.pos)

section
variable {s t : State} {w : Word} {p e : Pos} {ph : Phase}

/-- A frame that ends before the edge `e`, after everything reported. -/
theorem State.endFrameAt_outputOk (hout : s.outputOk = true) (hw : s.fitsWord w = true) (hp : s.progress < p)
    (hpe : p < e) : (s.endFrameAt w p e ph).outputOk = true :=
  State.outputOk_commit (s := { s with clk := { s.clk with pos := e } }) hout hw hp (le_sub_one_of_lt hpe)

theorem State.endFrameAt_seqOk (hseq : s.seqOk = true) : (s.endFrameAt w p e ph).seqOk = true :=
  State.seqOk_commit (s := { s with clk := { s.clk with pos := e } }) hseq w p (e - 1#64)

theorem State.endFrameAt_progress : (s.endFrameAt w p e ph).progress = e - 1#64 := by
  simp [State.endFrameAt]

theorem State.endFrameAt_clk : (s.endFrameAt w p e ph).clk = { s.clk with pos := e } := by
  simp [State.endFrameAt]

/-- A frame's real end, at the edge the clock stands on, finds and leaves what the two phases after it rely on
(42_edge_decoder R133, R134). -/
theorem State.RealEnd.stepOk (h : s.RealEnd w s.clk.pos t) (hv : Phase.inVariant .eEdge s.cfg = true)
    (hwf : s.clk.trace.wf = true) (hl : linesBefore s.data s.clk.pos = true) (hon : s.onActiveEdge = true)
    (hlt : s.progress < s.clk.pos) (hw : s.fitsWord w = true) (hout : s.outputOk = true) (hseq : s.seqOk = true) :
    s.StepOk t := by
  obtain ⟨-, hact, -⟩ := State.onActiveEdge_iff.mp hon
  obtain ⟨hclk, -, hdata⟩ := h.cursors
  have hlines : linesBefore t.data t.clk.pos = true := hdata ▸ linesBefore_mono hl (BitVec.le_of_lt hclk)
  cases h with
  | @active i a hi ha hb =>
    have hpi := (Trace.nextEdge_some hi).2
    have hia := (Trace.nextEdge_some ha).2
    have hlevel : s.clk.trace.level a = s.clk.trace.level s.clk.pos := by
      rw [Trace.level_nextEdge hwf ha, Trace.level_nextEdge hwf hi, Bool.not_not]
    refine ⟨rfl, hv, hlines, State.phaseOk_eEdge rfl ?_ ?_,
      State.endFrameAt_outputOk hout hw hlt (BitVec.lt_trans hpi hia), State.endFrameAt_seqOk hseq⟩
    · simp only [State.onActiveEdge_iff, State.endFrameAt, State.commit_clk, State.commit_cfg, State.commit_producer]
      exact ⟨(Trace.nextEdge_some ha).1, hlevel ▸ hact, hb⟩
    · rw [State.endFrameAt_progress, State.endFrameAt_clk]
      bv_omega
  | @inactive i hi hb =>
    have hpi := (Trace.nextEdge_some hi).2
    refine ⟨rfl, hv, hlines, State.phaseOk_eSeek rfl ?_, State.endFrameAt_outputOk hout hw hlt hpi,
      State.endFrameAt_seqOk hseq⟩
    rw [State.endFrameAt_progress, State.endFrameAt_clk]
    intro e _ he
    bv_omega

end

section
variable {s : State} (hi : s.Inv)
include hi

theorem State.Inv.fitsWord_wordAt (p : Pos) : s.fitsWord (wordAt s.data p) = true :=
  decide_eq_true (wordAt_lt hi.masks p)

theorem State.Inv.running_variant {p : Phase} (hp : s.phase = p) (hr : s.running = true) : p.inVariant s.cfg = true :=
  hp ▸ (hi.accepted_running hr).1

theorem State.Inv.eSeek_stepOk {a : Level} {e : Pos} (hr : s.running = true) (hp : s.phase = .eSeek)
    (ha : cfgAct s.cfg = some a) (hseek : s.clk.seekActive s.producer a = .ok { s.clk with pos := e }) :
    s.StepOk { s with clk := { s.clk with pos := e }, phase := .eEdge } := by
  have hv := hi.running_variant hp hr
  obtain ⟨hmem, hlt, hlevel⟩ := Trace.nextActive_some (Cursor.seekActive_reached hi.clk_wf hseek)
  obtain ⟨f, -, hb, hf⟩ := Cursor.seekActive_moved hseek
  cases hf
  exact ⟨rfl, hv, linesBefore_mono hi.lines (BitVec.le_of_lt hlt),
    State.phaseOk_eEdge rfl (State.onActiveEdge_iff.mpr ⟨hmem, hlevel ▸ ha, hb⟩) (hi.eSeek_ahead hp e hmem hlt),
    hi.output, hi.seq⟩

theorem State.Inv.eEdgeReal_stepOk {a : Level} {t : State} (hr : s.running = true) (hp : s.phase = .eEdge)
    (hend : (s.sampledAtClk a).RealEnd (wordAt s.data s.clk.pos) s.clk.pos t) : s.StepOk t := by
  have hv := hi.running_variant hp hr
  obtain ⟨hon, hlt⟩ := hi.eEdge_on hp
  have hfits : (s.sampledAtClk a).fitsWord (wordAt s.data s.clk.pos) = true := by
    have h := hi.fitsWord_wordAt s.clk.pos
    rwa [State.fitsWord, ← linesAt_length s.data s.clk.pos] at h
  obtain ⟨h1, h2, h3, h4, h5, h6⟩ := State.RealEnd.stepOk (s := s.sampledAtClk a) hend (hv) hi.clk_wf
    (linesBefore_linesAt _ (BitVec.le_refl _)) hon hlt hfits (s.sampledAtClk_outputOk a ▸ hi.output) hi.seq
  exact ⟨h1, h2, h3, h4, h5, h6⟩

theorem State.Inv.eEdgeLast_stepOk {a : Level} (hr : s.running = true) (hp : s.phase = .eEdge) :
    s.StepOk { s.sampledAtClk a with
      sLatch := s.clk.pos, wLatch := wordAt s.data s.clk.pos, estLatch := s.estimateWidth, phase := .eProbe } := by
  have hv := hi.running_variant hp hr
  obtain ⟨hon, hlt⟩ := hi.eEdge_on hp
  have hfits := hi.fitsWord_wordAt s.clk.pos
  rw [State.fitsWord, ← linesAt_length s.data s.clk.pos] at hfits
  exact ⟨rfl, hv, linesBefore_linesAt _ (BitVec.le_refl _),
    State.phaseOk_eProbe rfl hon hlt rfl hfits (State.clamp_lt_estimateWidth hi.config),
    (s.sampledAtClk_outputOk a).trans hi.output, hi.seq⟩

theorem State.Inv.eProbeReal_stepOk {t : State} (hr : s.running = true) (hp : s.phase = .eProbe)
    (hend : s.RealEnd s.wLatch s.sLatch t) : s.StepOk t := by
  have hv := hi.running_variant hp hr
  obtain ⟨hon, hlt, -⟩ := hi.eProbe_on hp
  obtain ⟨hs, hw⟩ := hi.eProbe_latches hp
  exact State.RealEnd.stepOk (hs ▸ hend) (hv) hi.clk_wf hi.lines hon hlt hw hi.output hi.seq

theorem State.Inv.eProbeEmpty_stepOk {q : Pos} (hr : s.running = true) (hp : s.phase = .eProbe)
    (hq : s.provisionalEnd s.sLatch s.estLatch = .ok q)
    (hcross : s.clk.wouldCross s.producer s.estLatch = .ok false) :
    s.StepOk { s.commit s.wLatch s.sLatch q with phase := .eSeek } := by
  have hv := hi.running_variant hp hr
  obtain ⟨-, hlt, he⟩ := hi.eProbe_on hp
  obtain ⟨hs, hw⟩ := hi.eProbe_latches hp
  obtain ⟨hf, -, hno⟩ := Cursor.wouldCross_eq_ok.mp hcross
  rw [State.provisionalEnd_of_fits he (hs ▸ hf)] at hq
  cases hq
  have hle : s.sLatch ≤ s.sLatch + s.estLatch - 1#64 := by rw [hs]; bv_omega
  refine ⟨rfl, hv, ?_, State.phaseOk_eSeek rfl ?_,
    State.outputOk_commit hi.output hw (hs ▸ hlt) hle, State.seqOk_commit hi.seq _ _ _⟩
  · simpa using hi.lines
  · simp only [State.commit_clk, State.commit_progress, hs]
    intro e hm hpe
    cases he' : s.clk.trace.nextEdge s.clk.pos with
    | none => exact absurd hpe (BitVec.not_lt.mpr (Trace.nextEdge_none.mp he' e hm))
    | some f =>
      have hfe := Trace.nextEdge_le hi.clk_wf he' hm hpe
      have hfar : s.clk.pos + s.estLatch < f := by simpa [he'] using hno.symm
      bv_omega

end

/-! ## The chip-select-gated decoder -/

/-- With both cursors on the falling edge of chip-select it is asserted (43_cs_decoder R150, R157). -/
theorem State.asserted_of_fall {t : State} {c : Cursor} (hwf : c.trace.wf = true)
    (hlevel : c.trace.level c.pos = true) (hf : c.trace.nextEdge c.pos = some t.clk.pos)
    (hcs : t.cs = some { c with pos := t.clk.pos }) : t.asserted = true :=
  State.asserted_iff.mpr ⟨_, hcs, by rw [Trace.level_nextEdge hwf hf, hlevel]; rfl, BitVec.le_refl _,
    fun _ hq => (Trace.nextEdge_some hq).2⟩

/-- It stays asserted while the clock moves forward to a position before its next edge. -/
theorem State.asserted_forward {s t : State} {c : Cursor} {p : Pos} (h : s.asserted = true) (hc : s.cs = some c)
    (hcs : t.cs = some c) (hclk : t.clk.pos = p) (hle : s.clk.pos ≤ p)
    (hq : ∀ q, c.trace.nextEdge c.pos = some q → p < q) : t.asserted = true := by
  obtain ⟨d, hd, hlevel, hpos, -⟩ := State.asserted_iff.mp h
  rw [hc] at hd
  cases hd
  exact State.asserted_iff.mpr ⟨c, hcs, hlevel, hclk ▸ BitVec.le_trans hpos hle, fun q he => hclk ▸ hq q he⟩

section
variable {s : State} (hi : s.Inv) {c : Cursor} (hc : s.cs = some c)
include hi hc

theorem State.Inv.qInitLow_stepOk (hr : s.running = true) (hp : s.phase = .qInit)
    (hlevel : c.trace.level c.pos = false) :
    s.StepOk { s with seq := 0#64, newAssert := true, phase := .qAlign } := by
  have hv := hi.running_variant hp hr
  obtain ⟨hclk, hcs, hprog⟩ := hi.qInit_start hp
  have hle : s.progress ≤ s.clk.pos := by rw [hprog]; exact BitVec.le_def.mpr (Nat.zero_le _)
  refine ⟨rfl, hv, hi.lines, State.phaseOk_qAlign rfl ?_ hle, hi.output, State.seqOk_iff.mpr fun _ => rfl⟩
  refine State.asserted_iff.mpr ⟨c, hc, hlevel, ?_, fun q hq => ?_⟩
  · rw [hcs c hc]
    exact BitVec.le_def.mpr (Nat.zero_le _)
  · have hlt := (Trace.nextEdge_some hq).2
    rw [hcs c hc, ← hclk] at hlt
    exact hlt

theorem State.Inv.qInitHigh_stepOk {f : Pos} (hr : s.running = true) (hp : s.phase = .qInit)
    (hlevel : c.trace.level c.pos = true) (hf : c.trace.nextEdge c.pos = some f) (hle : s.clk.pos ≤ f) :
    s.StepOk { s with
      cs := some { c with pos := f }, clk := { s.clk with pos := f }, seq := 0#64, newAssert := true, phase := .qAlign } := by
  have hv := hi.running_variant hp hr
  obtain ⟨-, -, hprog⟩ := hi.qInit_start hp
  have hpf : s.progress ≤ f := by rw [hprog]; exact BitVec.le_def.mpr (Nat.zero_le _)
  exact ⟨rfl, hv, linesBefore_mono hi.lines hle,
    State.phaseOk_qAlign rfl (State.asserted_of_fall (hi.cs_wf hc) hlevel hf rfl) hpf, hi.output,
    State.seqOk_iff.mpr fun _ => rfl⟩

theorem State.Inv.qAlignClock_stepOk {a : Level} {p : Pos} (hr : s.running = true) (hp : s.phase = .qAlign)
    (ha : cfgAct s.cfg = some a) (hn : s.clk.trace.nextActive a s.clk.pos = some p) (hb : p < s.producer.buffered)
    (hq : ∀ q, c.trace.nextEdge c.pos = some q → p < q) :
    s.StepOk { s with clk := { s.clk with pos := p }, phase := .qEdge } := by
  have hv := hi.running_variant hp hr
  obtain ⟨has, hle⟩ := hi.qAlign_asserted hp
  obtain ⟨hm, hlt, hlevel⟩ := Trace.nextActive_some hn
  have hpp : s.progress < p := by bv_omega
  exact ⟨rfl, hv, linesBefore_mono hi.lines (BitVec.le_of_lt hlt),
    State.phaseOk_qEdge rfl (State.asserted_forward has hc hc rfl (BitVec.le_of_lt hlt) hq)
      (State.onActiveEdge_iff.mpr ⟨hm, hlevel ▸ ha, hb⟩) hpp, hi.output, hi.seq⟩

theorem State.Inv.qAlignChip_stepOk {q : Pos} (hr : s.running = true) (hp : s.phase = .qAlign)
    (hq : c.trace.nextEdge c.pos = some q) (hb : q < s.producer.buffered) :
    s.StepOk { s with phase := .qDeassert } := by
  have hv := hi.running_variant hp hr
  obtain ⟨has, hle⟩ := hi.qAlign_asserted hp
  have hlt := State.asserted_nextEdge has hc hq
  have hpq : s.progress < q := by bv_omega
  exact ⟨rfl, hv, hi.lines, State.phaseOk_qDeassert rfl has hc hq hb hpq, hi.output, hi.seq⟩

omit hc in
theorem State.Inv.qEdge_stepOk {a : Level} (hr : s.running = true) (hp : s.phase = .qEdge) :
    s.StepOk { s.sampledAtClk a with
      sLatch := s.clk.pos, wLatch := wordAt s.data s.clk.pos, phase := .qRace } := by
  have hv := hi.running_variant hp hr
  obtain ⟨hon, hlt⟩ := hi.qEdge_on hp
  have hfits := hi.fitsWord_wordAt s.clk.pos
  rw [State.fitsWord, ← linesAt_length s.data s.clk.pos] at hfits
  exact ⟨rfl, hv, linesBefore_linesAt _ (BitVec.le_refl _),
    State.phaseOk_qRace rfl (hi.qEdge_asserted hp) hon hlt rfl hfits, (s.sampledAtClk_outputOk a).trans hi.output, hi.seq⟩

theorem State.Inv.qRaceClock_stepOk {a : Level} {p : Pos} (hr : s.running = true) (hp : s.phase = .qRace)
    (ha : cfgAct s.cfg = some a) (hn : s.clk.trace.nextActive a s.sLatch = some p) (hb : p < s.producer.buffered)
    (hq : ∀ q, c.trace.nextEdge c.pos = some q → p < q) :
    s.StepOk { s.commit s.wLatch s.sLatch (p - 1#64) with clk := { s.clk with pos := p }, phase := .qEdge } := by
  have hv := hi.running_variant hp hr
  obtain ⟨-, hlt⟩ := hi.qRace_on hp
  obtain ⟨has, hs, hw⟩ := hi.qRace_latches hp
  obtain ⟨hm, hsp, hlevel⟩ := Trace.nextActive_some hn
  have hle : s.clk.pos ≤ p := hs ▸ BitVec.le_of_lt hsp
  have hpp : p - 1#64 < p := by bv_omega
  refine ⟨rfl, hv, ?_, State.phaseOk_qEdge rfl ?_ ?_ ?_,
    State.outputOk_commit hi.output hw (hs ▸ hlt) (le_sub_one_of_lt hsp), State.seqOk_commit hi.seq _ _ _⟩
  · simpa using linesBefore_mono hi.lines hle
  · exact State.asserted_forward has hc (by simpa using hc) rfl hle hq
  · simpa [State.onActiveEdge_iff] using ⟨hm, hlevel ▸ ha, hb⟩
  · simpa using hpp

theorem State.Inv.qRaceChip_stepOk {q : Pos} (hr : s.running = true) (hp : s.phase = .qRace)
    (hq : c.trace.nextEdge c.pos = some q) (hb : q < s.producer.buffered) :
    s.StepOk { s.commit s.wLatch s.sLatch (q - 1#64) with phase := .qDeassert } := by
  have hv := hi.running_variant hp hr
  obtain ⟨-, hlt⟩ := hi.qRace_on hp
  obtain ⟨has, hs, hw⟩ := hi.qRace_latches hp
  have hsq : s.sLatch < q := hs ▸ State.asserted_nextEdge has hc hq
  have hqq : q - 1#64 < q := by bv_omega
  refine ⟨rfl, hv, ?_, State.phaseOk_qDeassert (c := c) (q := q) rfl ?_ ?_ hq ?_ ?_,
    State.outputOk_commit hi.output hw (hs ▸ hlt) (le_sub_one_of_lt hsq), State.seqOk_commit hi.seq _ _ _⟩
  · simpa using hi.lines
  · simpa [State.asserted] using has
  · simpa using hc
  · simpa using hb
  · simpa using hqq

theorem State.Inv.qDeassert_stepOk {q : Pos} (hr : s.running = true) (hp : s.phase = .qDeassert)
    (hq : c.trace.nextEdge c.pos = some q) :
    s.StepOk { s with
      cs := some { c with pos := q }, out := s.out ++ [.progress q], progress := q, phase := .qReassert } := by
  have hv := hi.running_variant hp hr
  have has := hi.qDeassert_asserted hp
  obtain ⟨r, hr', -, hlt⟩ := hi.qDeassert_edge hp hc
  obtain ⟨d, hd, hlow, -⟩ := State.asserted_iff.mp has
  rw [hc] at hd
  rw [hq] at hr'
  cases hd
  cases hr'
  refine ⟨rfl, hv, hi.lines, State.phaseOk_qReassert rfl rfl ?_ ?_ (BitVec.le_refl _), State.outputOk_report hi.output hlt, hi.seq⟩
  · rw [Trace.level_nextEdge (hi.cs_wf hc) hq, hlow]
    rfl
  · exact BitVec.le_of_lt (State.asserted_nextEdge (s := s) has hc hq)

theorem State.Inv.qReassert_stepOk {f : Pos} (hr : s.running = true) (hp : s.phase = .qReassert)
    (hf : c.trace.nextEdge c.pos = some f) (hle : s.clk.pos ≤ f) :
    s.StepOk { s with
      cs := some { c with pos := f }, clk := { s.clk with pos := f }, out := s.out ++ [.progress f], progress := f
      seq := 0#64, newAssert := true, lastWKnown := false, phase := .qAlign } := by
  have hv := hi.running_variant hp hr
  obtain ⟨hlevel, -, hpc⟩ := hi.qReassert_cursor hp hc
  have hcf := (Trace.nextEdge_some hf).2
  have hpf : s.progress < f := by bv_omega
  exact ⟨rfl, hv, linesBefore_mono hi.lines hle,
    State.phaseOk_qAlign rfl (State.asserted_of_fall (hi.cs_wf hc) hlevel hf rfl) (BitVec.le_refl _),
    State.outputOk_report hi.output hpf, State.seqOk_iff.mpr fun _ => rfl⟩

end

/-! ## The dual-edge decoder -/

section
variable {s : State} (hi : s.Inv)
include hi

theorem State.Inv.dHeadProbe_stepOk (hr : s.running = true) (hp : s.phase = .dHead) (hpend : s.pendValid = true) :
    s.StepOk { s with estLatch := s.estimateWidth, phase := .dProbe } :=
  have hv := hi.running_variant hp hr
  ⟨rfl, hv, hi.lines, State.phaseOk_dProbe rfl (hi.dHead_pending hp) hpend (State.clamp_lt_estimateWidth hi.config),
    hi.output, hi.seq⟩

theorem State.Inv.dHeadAdvance_stepOk (hr : s.running = true) (hp : s.phase = .dHead)
    (hm : s.pendValid = true → s.clk.moreBuffered s.producer = true) : s.StepOk { s with phase := .dAdvance } :=
  have hv := hi.running_variant hp hr
  ⟨rfl, hv, hi.lines, State.phaseOk_dAdvance rfl (hi.dHead_pending hp) hm, hi.output, hi.seq⟩

/-- Closing the pending frame before an edge past the clock cursor leaves the stream sound, and everything
reported before that edge. -/
theorem State.Inv.closePending_ok {e : Pos} (hpend : s.pendingOk = true) (he : s.clk.pos < e) :
    (s.closePending e).outputOk = true ∧ (s.closePending e).progress < e ∧ (s.closePending e).seqOk = true := by
  obtain ⟨hle, hopen⟩ := State.pendingOk_iff.mp hpend
  rcases s.closePending_cases e with ⟨hv, h⟩ | ⟨-, h⟩ <;> rw [h]
  · obtain ⟨hs, -, -, hw, hlt⟩ := hopen hv
    refine ⟨State.outputOk_commit hi.output hw (hs ▸ hlt) (le_sub_one_of_lt (hs ▸ he)), ?_,
      State.seqOk_commit hi.seq _ _ _⟩
    rw [State.commit_progress]
    bv_omega
  · exact ⟨hi.output, by bv_omega, hi.seq⟩

theorem State.Inv.realEdge_stepOk {e : Pos} (hv : Phase.inVariant .dHead s.cfg = true) (hpend : s.pendingOk = true)
    (he : s.clk.trace.nextEdge s.clk.pos = some e) (hb : e < s.producer.buffered) :
    s.StepOk (({ s with clk := { s.clk with pos := e } } : State).reopenedAt e (s.clk.trace.level e)) := by
  obtain ⟨hm, hlt⟩ := Trace.nextEdge_some he
  obtain ⟨hout, hprog, hseq⟩ := hi.closePending_ok hpend hlt
  obtain ⟨hdata, hprod⟩ := s.closePending_reads e
  have hfits := hi.fitsWord_wordAt e
  rw [State.fitsWord, ← linesAt_length s.data e] at hfits
  rw [State.reopenedAt, State.closePending_setClk]
  refine ⟨rfl, hv, linesBefore_linesAt _ (BitVec.le_refl _), State.phaseOk_dHead rfl ?_, ?_, hseq⟩
  · exact State.pendingOk_iff.mpr ⟨BitVec.le_of_lt hprog, fun _ => ⟨rfl, hm, hprod ▸ hb, hfits, hprog⟩⟩
  · refine (State.outputOk_congr (s := s.closePending e) ?_ ?_ ?_ ?_ ?_).trans hout
    · simp
    · simp
    · rfl
    · rfl
    · exact (linesAt_length s.data e).trans (congrArg List.length hdata).symm

theorem State.Inv.dProbeEmpty_stepOk (hr : s.running = true) (hp : s.phase = .dProbe)
    (hf : s.clk.pos.toNat + s.estLatch.toNat < 2 ^ 64) :
    s.StepOk { s.commit s.pendVal s.pendStart (s.clk.pos + s.estLatch - 1#64) with
      clk := { s.clk with pos := s.clk.pos + s.estLatch }, pendValid := false, phase := .dHead } := by
  have hv := hi.running_variant hp hr
  obtain ⟨hk, hpend, he⟩ := hi.dProbe_pending hp
  obtain ⟨hs, -, -, hw, hlt⟩ := (State.pendingOk_iff.mp hk).2 hpend
  have hmove : s.clk.pos ≤ s.clk.pos + s.estLatch := by bv_omega
  have hend : s.pendStart ≤ s.clk.pos + s.estLatch - 1#64 := by rw [hs]; bv_omega
  have hprog : s.clk.pos + s.estLatch - 1#64 ≤ s.clk.pos + s.estLatch := by bv_omega
  refine ⟨rfl, hv, ?_, State.phaseOk_dHead rfl (State.pendingOk_iff.mpr ⟨?_, nofun⟩),
    State.outputOk_commit hi.output hw (hs ▸ hlt) hend, State.seqOk_commit hi.seq _ _ _⟩
  · simpa using linesBefore_mono hi.lines hmove
  · simpa using hprog

end

/-- A completed turn of a run in progress keeps these clauses. -/
theorem State.Inv.completes_stepOk {s t : State} (hi : s.Inv) (hr : s.running = true) (h : s.Completes (fetch s) t) :
    s.StepOk t := by
  obtain ⟨hidle, hrun⟩ := State.running_iff.mp hr
  have hfinal : ∀ p : Phase, p.final = true → s.phase ≠ p := by
    rintro p hf rfl
    rw [hf] at hrun
    cases hrun
  have hcode : ∃ w, encode (fetch s) = some (.phase w) := ⟨_, (encode_decodePhase _).1⟩
  have hstarts := fetch_not_starts hidle
  generalize hi' : fetch s = i at h hcode hstarts
  have at_phase : ∀ p : Phase, i = decodePhase p.code → s.phase = p := fun p hp => phase_of_fetch (hi'.trans hp)
  cases h with
  | start hs =>
    rcases hs with hs | ⟨rfl, -⟩
    · exact absurd (.inr ⟨_, hs⟩) hstarts
    · exact absurd (.inl rfl) hstarts
  | eSeek ha hseek => exact hi.eSeek_stepOk hr (at_phase .eSeek rfl) ha hseek
  | eEdgeReal ha hl hend => exact hi.eEdgeReal_stepOk hr (at_phase .eEdge rfl) hend
  | eEdgeLast ha hl => exact hi.eEdgeLast_stepOk hr (at_phase .eEdge rfl)
  | eProbeReal hend => exact hi.eProbeReal_stepOk hr (at_phase .eProbe rfl) hend
  | eProbeEmpty hq hcross => exact hi.eProbeEmpty_stepOk hr (at_phase .eProbe rfl) hq hcross
  | qInitLow hc hlevel => exact hi.qInitLow_stepOk hc hr (at_phase .qInit rfl) hlevel
  | qInitHigh hc hlevel hf hb hle => exact hi.qInitHigh_stepOk hc hr (at_phase .qInit rfl) hlevel hf hle
  | qAlignClock ha hc hn hb hq => exact hi.qAlignClock_stepOk hc hr (at_phase .qAlign rfl) ha hn hb hq
  | qAlignChip hc hq hb => exact hi.qAlignChip_stepOk hc hr (at_phase .qAlign rfl) hq hb
  | qEdge ha hl => exact hi.qEdge_stepOk hr (at_phase .qEdge rfl)
  | qRaceClock ha hc hn hb hq => exact hi.qRaceClock_stepOk hc hr (at_phase .qRace rfl) ha hn hb hq
  | qRaceChip hc hq hb => exact hi.qRaceChip_stepOk hc hr (at_phase .qRace rfl) hq hb
  | qDeassert hc hq hb => exact hi.qDeassert_stepOk hc hr (at_phase .qDeassert rfl) hq
  | qReassert hc hf hb hle => exact hi.qReassert_stepOk hc hr (at_phase .qReassert rfl) hf hle
  | dHeadProbe hv => exact hi.dHeadProbe_stepOk hr (at_phase .dHead rfl) hv
  | dHeadAdvance hm => exact hi.dHeadAdvance_stepOk hr (at_phase .dHead rfl) hm
  | realEdge hd he hb =>
    rcases hd with hd | hd
    · have hp := at_phase .dAdvance hd
      have hv := hi.running_variant hp hr
      exact hi.realEdge_stepOk hv (hi.dAdvance_pending hp) he hb
    · have hp := at_phase .dProbe hd
      have hv := hi.running_variant hp hr
      exact hi.realEdge_stepOk hv (hi.dProbe_pending hp).1 he hb
  | dProbeEmpty hf => exact hi.dProbeEmpty_stepOk hr (at_phase .dProbe rfl) hf
  | final hd =>
    rcases hd with hd | hd | hd
    · exact absurd (at_phase .done hd) (hfinal _ rfl)
    · exact absurd (at_phase .cancelled hd) (hfinal _ rfl)
    · exact absurd (at_phase .stopped hd) (hfinal _ rfl)
  | seekActive | opFinishReal | opSampleWord | opEstimateWidth | opCommit | opReportProgress | opMarkArrow | opCloseAndOpen =>
    obtain ⟨w, hw⟩ := hcode
    cases hw

end Sys2Proof.Machine
end

section
/-! SUPPORT. Every step keeps the machine's invariant: the block's turn, completed or ended, the start step from
`IDLE`, and the moves of the environment (20_memory R52, 60_exceptions R201 to R213). -/

namespace Sys2Proof.Machine

/-! ## The block's turn in a run -/

section
variable {s t : State} (hi : s.Inv)
include hi

/-- A completed turn of a run keeps what the frame keeps, and the other clauses by `State.StepOk`. -/
theorem State.Inv.of_stepOk (hr : s.running = true) (hk : s.KeepsRun t) (hcause : t.cause = s.cause)
    (h : s.StepOk t) : t.Inv := by
  have nonfinal : ∀ {u : State}, u.running = true → u.phase ≠ .idle ∧ u.phase ≠ .stopped := fun hu => by
    obtain ⟨hidle, hfinal⟩ := State.running_iff.mp hu
    exact ⟨hidle, fun hp => by rw [hp] at hfinal; cases hfinal⟩
  obtain ⟨hsi, hss⟩ := nonfinal hr
  obtain ⟨hti, hts⟩ := nonfinal h.running
  obtain ⟨-, hcs, hd1, hd2⟩ := hi.accepted_running hr
  refine ⟨hk.config ▸ hi.config, ?_, ?_, ?_, ?_, ?_, h.lines, h.phase, h.output, h.seq⟩
  · rw [Memory.wf, hk.traces, hk.inputs]
    exact hi.traces
  · have hc := hi.capture
    rw [State.captureOk, State.captured_of_ne_idle hsi] at hc
    rw [State.captureOk, State.captured_of_ne_idle hti, hk.traces, hk.producer]
    exact hc
  · have hm := hi.masks
    rw [masksOk, ← hk.masks, ← hk.length] at hm
    exact hm
  · exact State.acceptedOk_iff.mpr fun _ =>
      ⟨hk.cfg ▸ h.variant, by rw [hk.csIsSome, hk.cfg, hcs], hk.length ▸ hd1, by rw [hk.length, hk.config]; exact hd2⟩
  · have hzero := hcause.trans (hi.cause_eq_zero hss)
    rw [State.causeOk_iff, hzero]
    exact ⟨⟨fun hp => absurd hp hts, fun hne => absurd rfl hne⟩, by decide⟩

/-- Ending a run writes `PHASE` and `CAUSE` alone (60_exceptions R205, R206, R208). -/
theorem State.Inv.ended {p : Phase} {c : BitVec 8} (hp : p.final = true) (hcause : p = .stopped ↔ c ≠ 0#8)
    (hne : c ≠ Cause.nonmonotonic.code) : ({ s with phase := p, cause := c } : State).Inv where
  config := hi.config
  traces := hi.traces
  capture := by
    have hidle : p ≠ .idle := by
      rintro rfl
      cases hp
    rw [State.captureOk_iff, State.captured, if_neg hidle]
    exact hi.traces_fit
  masks := hi.masks
  accepted := State.acceptedOk_iff.mpr fun hr => by simp [State.running, hp] at hr
  cause := State.causeOk_iff.mpr ⟨hcause, hne⟩
  lines := hi.lines
  phase := by cases p <;> simp_all [State.phaseOk, Phase.final]
  output := hi.output
  seq := hi.seq

theorem State.Inv.finish (hr : s.phase ≠ .stopped) : s.finish.Inv := by
  have h := hi.ended (p := .done) (c := 0#8) rfl (by decide) (by decide)
  rwa [← hi.cause_eq_zero hr] at h

theorem State.Inv.stop_posOverflow : (s.stop .posOverflow).Inv :=
  hi.ended (p := .stopped) (c := 0x11#8) rfl (by decide) (by decide)

end

/-! ## The start step -/

theorem mapLines_length (i : Nat) (ts : List Trace) : (mapLines i ts).length = ts.length := by
  simp [mapLines_eq_mapIdx]

theorem mapLines_masks (i : Nat) (ts : List Trace) :
    (mapLines i ts).map (fun l => l.mask) = (List.range' i ts.length).map fun k => 1#16 <<< k := by
  induction ts generalizing i with
  | nil => rfl
  | cons t ts ih => simp [mapLines, ih, List.range'_succ]

theorem masksOk_mapLines (ts : List Trace) : masksOk (mapLines 0 ts) = true := by
  rw [masksOk, mapLines_masks, mapLines_length, List.range_eq_range', beq_self_eq_true]

/-- What an accepted start step has checked (60_exceptions R200, R201). -/
theorem startCheck_eq_none {c : Config} {w : BitVec 32} {i : Inputs} (h : startCheck c w i = none) :
    (cfgFirstPhase w).inVariant w = true ∧ cfgCsEn w = i.cs.isSome ∧ 1 ≤ i.lines.length ∧ i.lines.length ≤ c.maxData := by
  have hcs : cfgCsEn w = i.cs.isSome := by
    by_contra hne
    unfold startCheck at h
    split_ifs at h
  rw [startCheck_eq_toNat] at h
  split_ifs at h with h8 h3 h6 h0 hmax
  have h8 : w.toNat / 8 = 0 := not_not.mp h8
  refine ⟨?_, hcs, Nat.one_le_iff_ne_zero.mpr h0, Nat.le_of_not_lt hmax⟩
  have hw : ∀ n < 8, (w == BitVec.ofNat 32 n) = decide (w.toNat = n) := fun n hn => by
    rw [Bool.eq_iff_iff, beq_iff_eq, decide_eq_true_eq, ← BitVec.toNat_inj, BitVec.toNat_ofNat]
    omega
  rw [cfgFirstPhase_eq_toNat h8]
  split_ifs <;> simp [Phase.inVariant, hw] <;> omega

/-- No check of the start step has a run fault's code. -/
theorem startCheck_code {c : Config} {w : BitVec 32} {i : Inputs} {k : Cause} (h : startCheck c w i = some k) :
    k.code ≠ 0#8 ∧ k.code ≠ Cause.nonmonotonic.code := by
  unfold startCheck at h
  split_ifs at h <;> cases h <;> decide

theorem State.Inv.idle_registers {s : State} (hi : s.Inv) (hp : s.phase = .idle) :
    s.out = [] ∧ s.progress = 0#64 ∧ s.seq = 0#64 ∧ s.newAssert = false ∧ s.pendValid = false := by
  have h := hi.phase
  simp only [State.phaseOk, hp, Bool.and_eq_true, beq_iff_eq, Bool.not_eq_true'] at h
  obtain ⟨⟨⟨⟨⟨⟨-, hout⟩, hprog⟩, hseq⟩, hnew⟩, hpend⟩, -⟩ := h
  exact ⟨hout, hprog, hseq, hnew, hpend⟩

section
variable {s : State} (hi : s.Inv) (hp : s.phase = .idle) (w : BitVec 32)
include hi hp

/-- After the end of the capture the presented traces fit it, so the latched ones do (20_memory R52). -/
theorem State.Inv.presented_fit (he : s.producer.ended = true) :
    ∀ t ∈ s.inputs.traces, t.fits s.producer.buffered = true := by
  have h := State.captureOk_iff.mp hi.capture he
  rwa [State.captured_of_idle hp] at h

/-- The clauses a start step establishes whatever it enters: it latches fresh cursors on canonical traces, and has
emitted nothing (70_reset_and_hazards R221). -/
theorem State.Inv.latched {t : State} {p : Phase} {v : Bool} {c : BitVec 8}
    (ht : t = { s.latch w with phase := p, pendValid := v, cause := c }) (hne : p ≠ .idle)
    (hacc : t.acceptedOk = true) (hcause : t.causeOk = true) (hok : t.phaseOk = true) : t.Inv := by
  obtain ⟨hout, hprog, -, hnew, -⟩ := hi.idle_registers hp
  have htraces : t.traces = s.inputs.traces := by
    rw [ht]
    exact s.latch_traces w
  have hzero : ∀ l ∈ mapLines 0 s.inputs.lines, l.cursor.pos ≤ 0#64 := by
    intro l hl
    rw [mapLines_eq_mapIdx] at hl
    obtain ⟨k, hk, rfl⟩ := List.mem_mapIdx.mp hl
    exact BitVec.le_refl _
  refine ⟨ht ▸ hi.config, ?_, ?_, ?_, hacc, hcause, ?_, hok, ?_, ?_⟩
  · rw [ht]
    exact s.latch_memory_wf w hi.traces
  · rw [State.captureOk_iff, State.captured, htraces, ht, if_neg hne]
    exact hi.presented_fit hp
  · rw [ht]
    exact masksOk_mapLines _
  · rw [ht]
    exact linesBefore_iff.mpr hzero
  · have hout : t.out = [] := ht ▸ hout
    have hprog : t.progress = 0#64 := ht ▸ hprog
    simp [State.outputOk, hout, hprog, framesOf, progressOf]
  · have hnew : t.newAssert = false := ht ▸ hnew
    simp [State.seqOk, hnew]

theorem State.Inv.start : (s.start w).Inv := by
  obtain ⟨-, hprog, -⟩ := hi.idle_registers hp
  have hle : ∀ {q : Pos}, s.progress ≤ q := fun {q} => by rw [hprog]; exact BitVec.le_def.mpr (Nat.zero_le _)
  rcases s.start_cases w with ⟨c, hc, h⟩ | ⟨hcheck, h⟩
  · obtain ⟨hne, hmono⟩ := startCheck_code hc
    rw [h]
    exact hi.latched hp w (v := s.pendValid) rfl nofun rfl
      (State.causeOk_iff.mpr ⟨⟨fun _ => hne, fun _ => rfl⟩, hmono⟩) rfl
  · obtain ⟨hv, hcs, hd1, hd2⟩ := startCheck_eq_none hcheck
    have hphase : cfgFirstPhase w = .eSeek ∨ cfgFirstPhase w = .qInit ∨ cfgFirstPhase w = .dHead := by
      unfold cfgFirstPhase
      split_ifs <;> simp
    have hzero : (s.start w).cause = 0#8 := h ▸ hi.cause_eq_zero (by rw [hp]; exact nofun)
    have hfirst : (s.start w).phase = cfgFirstPhase w := by rw [h]
    refine hi.latched hp w (c := s.cause) h ?_ (State.acceptedOk_iff.mpr fun _ => ?_) ?_ ?_
    · rcases hphase with hq | hq | hq <;> simp [hq]
    · rw [h]
      refine ⟨hv, Option.isSome_map.trans hcs.symm, ?_⟩
      exact (mapLines_length 0 s.inputs.lines).symm ▸ ⟨hd1, hd2⟩
    · rw [State.causeOk_iff, hzero, hfirst]
      rcases hphase with hq | hq | hq <;> rw [hq] <;> decide
    · rcases hphase with hq | hq | hq
      · have hclk : (s.start w).progress = (s.start w).clk.pos := by
          rw [h]
          exact hprog
        exact State.phaseOk_eSeek (hfirst.trans hq) fun e _ he => hclk ▸ he
      · refine State.phaseOk_qInit (hfirst.trans hq) ?_ ?_ ?_ <;> rw [h]
        · rfl
        · intro c hc
          obtain ⟨u, -, rfl⟩ := Option.map_eq_some_iff.mp hc
          rfl
        · exact hprog
      · refine State.phaseOk_dHead (hfirst.trans hq) (State.pendingOk_iff.mpr ?_)
        rw [h]
        exact ⟨hle, by simp [hq]⟩

end

/-! ## The environment -/

section
variable {s : State} {pr : Producer} (hle : s.producer.buffered ≤ pr.buffered)
include hle

theorem Producer.known_mono {x : Option Pos} (h : s.producer.known x = true) : pr.known x = true := by
  obtain ⟨e, he, hb⟩ := Producer.known_iff.mp h
  exact Producer.known_iff.mpr ⟨e, he, by bv_omega⟩

theorem State.onActiveEdge_setProducer (h : s.onActiveEdge = true) : (s.setProducer pr).onActiveEdge = true := by
  obtain ⟨hm, ha, hb⟩ := State.onActiveEdge_iff.mp h
  have hb : s.clk.pos < pr.buffered := by bv_omega
  exact State.onActiveEdge_iff.mpr ⟨hm, ha, hb⟩

theorem State.pendingOk_setProducer (h : s.pendingOk = true) : (s.setProducer pr).pendingOk = true := by
  obtain ⟨hp, hopen⟩ := State.pendingOk_iff.mp h
  refine State.pendingOk_iff.mpr ⟨hp, fun hv => ?_⟩
  obtain ⟨hs, hm, hb, hw, hlt⟩ := hopen hv
  have hb : s.clk.pos < pr.buffered := by bv_omega
  exact ⟨hs, hm, hb, hw, hlt⟩

/-- What a phase relies on stays while the producer buffers more (20_memory R52). -/
theorem State.phaseOk_setProducer (h : s.phaseOk = true) : (s.setProducer pr).phaseOk = true := by
  have hon := State.onActiveEdge_setProducer (s := s) hle
  have hpend := State.pendingOk_setProducer (s := s) hle
  have hknown : ∀ x, s.producer.known x = true → pr.known x = true := fun _ => Producer.known_mono hle
  cases hp : s.phase <;> simp only [State.phaseOk, State.setProducer_phase, hp, Bool.and_eq_true] at h ⊢
  case eEdge => exact ⟨hon h.1, h.2⟩
  case eProbe =>
    obtain ⟨⟨⟨⟨h1, h2⟩, h3⟩, h4⟩, h5⟩ := h
    exact ⟨⟨⟨⟨hon h1, h2⟩, h3⟩, h4⟩, h5⟩
  case qEdge => exact ⟨⟨h.1.1, hon h.1.2⟩, h.2⟩
  case qRace =>
    obtain ⟨⟨⟨⟨h1, h2⟩, h3⟩, h4⟩, h5⟩ := h
    exact ⟨⟨⟨⟨h1, hon h2⟩, h3⟩, h4⟩, h5⟩
  case qDeassert =>
    refine ⟨h.1, ?_⟩
    rw [State.setProducer_cs]
    cases hc : s.cs <;> simp only [hc, Bool.and_eq_true] at h ⊢
    · exact h.2
    · exact ⟨hknown _ h.2.1, h.2.2⟩
  case dHead => exact hpend h
  case dAdvance =>
    simp only [Bool.or_eq_true] at h ⊢
    exact ⟨hpend h.1, h.2.imp_right (hknown _)⟩
  case dProbe => exact ⟨⟨hpend h.1.1, h.1.2⟩, h.2⟩
  all_goals exact h

end



section
variable {s : State} (hi : s.Inv)
include hi

/-- A producer that has buffered at least as much, and whose capture is complete if it has ended. -/
theorem State.Inv.setProducer {pr : Producer} (hle : s.producer.buffered ≤ pr.buffered)
    (hfits : pr.ended = true → ∀ t ∈ s.captured, t.fits pr.buffered = true) : (s.setProducer pr).Inv where
  config := hi.config
  traces := hi.traces
  capture := State.captureOk_iff.mpr hfits
  masks := hi.masks
  accepted := hi.accepted
  cause := hi.cause
  lines := hi.lines
  phase := State.phaseOk_setProducer hle hi.phase
  output := hi.output
  seq := hi.seq

theorem State.Inv.present {i : Inputs} (hwf : i.traces.all Trace.wf = true)
    (hidle : s.phase = .idle → i.usable s.producer = true) : (s.setInputs i).Inv where
  config := hi.config
  traces := by
    have h := hi.traces
    rw [Memory.wf, Bool.and_eq_true] at h ⊢
    exact ⟨hwf, h.2⟩
  capture := by
    refine State.captureOk_iff.mpr fun he => ?_
    by_cases hp : s.phase = .idle
    · have hu := hidle hp
      have he : s.producer.ended = true := he
      rw [State.captured_of_idle (s := s.setInputs i) hp]
      simpa [Inputs.usable, he, hwf] using hu
    · have h := State.captureOk_iff.mp hi.capture he
      rw [State.captured_of_ne_idle hp] at h
      rw [State.captured_of_ne_idle (s := s.setInputs i) hp]
      exact h
  masks := hi.masks
  accepted := hi.accepted
  cause := hi.cause
  lines := hi.lines
  phase := hi.phase
  output := hi.output
  seq := hi.seq

/-- A new run starts from the reset state with usable presented traces (70_reset_and_hazards R220). -/
theorem State.Inv.newRun {pr : Producer} {sink : List (List Record)} {ts : List Turn}
    (husable : s.inputs.usable pr = true) :
    ({ State.reset with config := s.config, inputs := s.inputs, producer := pr, sink := sink, schedule := ts } :
      State).Inv := by
  obtain ⟨-, htraces, -, hmasks, haccepted, hcause, hlines, hphase, houtput, hseq⟩ := resetMeetsInvariant
  rw [Inputs.usable, Bool.and_eq_true] at husable
  refine ⟨hi.config, ?_, ?_, hmasks, rfl, hcause, hlines, hphase, houtput, hseq⟩
  · rw [Memory.wf, Bool.and_eq_true] at htraces ⊢
    exact ⟨husable.1, htraces.2⟩
  · refine State.captureOk_iff.mpr fun he => ?_
    have he : pr.ended = true := he
    rw [State.captured_of_idle rfl]
    simpa [he] using husable.2

theorem State.Inv.moves {m : HostMove} {t : State} (h : s.Moves m t) : t.Inv := by
  cases h with
  | append hlive hn hb =>
    refine hi.setProducer ?_ nofun
    rw [BitVec.le_def, hb]
    exact Nat.le_add_right _ _
  | endCapture hfits => exact hi.setProducer (BitVec.le_refl _) fun _ => List.all_eq_true.mp hfits
  | cancel hrun =>
    have hzero := hi.cause_eq_zero (by rintro hp; simp [hp, Phase.final] at hrun)
    have h := hi.ended (p := .cancelled) (c := 0#8) rfl (by decide) (by decide)
    rwa [← hzero] at h
  | present hwf hidle => exact hi.present hwf hidle
  | newRun hfinal husable => exact hi.newRun husable
  | none => exact hi

theorem State.Inv.setSchedule (ts : List Turn) : (s.setSchedule ts).Inv := by
  obtain ⟨h1, h2, h3, h4, h5, h6, h7, h8, h9, h10⟩ := hi
  exact ⟨h1, h2, h3, h4, h5, h6, h7, h8, h9, h10⟩

/-- The block's turn keeps the invariant: it starts, completes, waits, or a width probe holds or overflows. -/
theorem State.Inv.of_blockStep {t : State} (h : blockStep s = .next t) : t.Inv := by
  by_cases hidle : s.phase = .idle
  · rw [blockStep_idle hidle] at h
    cases h
    exact hi.start hidle _
  cases hf : s.phase.final with
  | true =>
    rw [blockStep_final hf] at h
    cases h
    exact hi
  | false =>
    have hr : s.running = true := State.running_iff.mpr ⟨hidle, hf⟩
    have hstop : s.phase ≠ .stopped := by
      rintro hp
      simp [hp, Phase.final] at hf
    have hk := blockStep_keepsRun hidle h
    rw [blockStep_eq_settle] at h
    rcases hi.turnEnds with ⟨u, hu⟩ | ⟨hw, -, -⟩ | ⟨-, hw⟩
    · rw [hu] at h
      cases h
      have hc := State.turnRes_completes hu
      have hok := hi.completes_stepOk hr hc
      refine hi.of_stepOk hr hk (hc.cause fun hp => ?_) hok
      have hfinal := (State.running_iff.mp hok.running).2
      rw [hp] at hfinal
      cases hfinal
    · rw [hw, Producer.wait] at h
      split at h <;> cases h
      · exact hi.finish hstop
      · exact hi
    · rcases hw with hw | hw <;> rw [hw] at h <;> cases h
      · exact hi
      · exact hi.stop_posOverflow

end

/-- Settles O44: the block's turn and the environment's moves each keep every clause. -/
theorem stepKeepsInvariant : Obligations.StepKeepsInvariant := by
  intro s t hi h
  rcases step_cases h with ⟨u, hu, hb⟩ | ⟨m, rest, -, rfl⟩
  · have hui : u.Inv := by
      rcases hu with rfl | ⟨rest, -, rfl⟩
      · exact hi
      · exact hi.setSchedule rest
    exact hui.of_blockStep hb
  · exact (hi.setSchedule rest).moves ((s.setSchedule rest).hostMove_moves m)

end Sys2Proof.Machine
end

section
/-! SUPPORT. What a completed operation does to the frames and to their numbering: nothing, or it begins an
assertion, or it commits one frame and counts it (41_frame_emitter R111, 43_cs_decoder R150, R157 and R160). -/

namespace Sys2Proof.Machine

/-- What an operation does to the frames, `SEQ` and `NEW_ASSERT`. -/
inductive State.Numbers (s t : State) (i : Instr) : Prop
  | keeps (hf : framesOf t.out = framesOf s.out) (hq : t.seq = s.seq) (hn : t.newAssert = s.newAssert)
  | begins (hi : i ∈ [.phQInit, .phQReassert]) (hf : framesOf t.out = framesOf s.out) (hn : t.newAssert = true)
  | counts (f : Frame) (hf : framesOf t.out = framesOf s.out ++ [f]) (hs : f.seq = s.frameSeq)
      (hq : t.seq = if cfgCsEn s.cfg then s.seq + 1#64 else s.seq)
      (hn : t.newAssert = if cfgCsEn s.cfg then false else s.newAssert)

section
variable {s t : State} {i : Instr}

/-- A commit counts its frame, whatever is appended after it that is no frame. -/
theorem State.Numbers.of_commit (v : Word) (p q : Pos) (hf : framesOf t.out = framesOf (s.commit v p q).out)
    (hq : t.seq = (s.commit v p q).seq) (hn : t.newAssert = (s.commit v p q).newAssert) : s.Numbers t i :=
  .counts { value := v, startPos := p, endPos := q, seq := s.frameSeq } (hf.trans (by simp)) rfl
    (hq.trans (s.commit_seq v p q)) (hn.trans (s.commit_newAssert v p q))

/-- What is appended before a frame, and is no frame, changes nothing of it. -/
theorem State.Numbers.of_frames {u : State} (h : u.Numbers t i) (hf : framesOf u.out = framesOf s.out)
    (hcfg : u.cfg = s.cfg) (hq : u.seq = s.seq) (hn : u.newAssert = s.newAssert) : s.Numbers t i := by
  cases h with
  | keeps hf' hq' hn' => exact .keeps (hf'.trans hf) (hq'.trans hq) (hn'.trans hn)
  | begins hi hf' hn' => exact .begins hi (hf'.trans hf) hn'
  | counts f hf' hs hq' hn' =>
    rw [State.frameSeq, hcfg, hq] at hs
    rw [hcfg, hq] at hq'
    rw [hcfg, hn] at hn'
    exact .counts f (hf ▸ hf') hs hq' hn'

theorem State.endFrameAt_numbers (s : State) (w : Word) (p e : Pos) (ph : Phase) :
    s.Numbers (s.endFrameAt w p e ph) i := by
  have h : ({ s with clk := { s.clk with pos := e } } : State).Numbers (s.endFrameAt w p e ph) i :=
    .of_commit w p (e - 1#64) rfl rfl rfl
  exact h.of_frames rfl rfl rfl rfl

theorem State.RealEnd.numbers {w : Word} {p : Pos} (h : s.RealEnd w p t) : s.Numbers t i := by
  cases h <;> exact s.endFrameAt_numbers _ _ _ _

theorem State.reopenedAt_frames (s : State) (e : Pos) (l : Level) :
    framesOf (s.reopenedAt e l).out = framesOf (s.closePending e).out := by
  simp only [State.reopenedAt, framesOf_append, framesOf_dots, framesOf_marker, List.append_nil]

theorem State.reopenedAt_numbers (s : State) (e : Pos) (l : Level) : s.Numbers (s.reopenedAt e l) i := by
  have hf := s.reopenedAt_frames e l
  rcases s.closePending_cases e with ⟨-, h⟩ | ⟨-, h⟩ <;> rw [h] at hf
  · exact .of_commit _ _ _ hf (by rw [State.reopenedAt, h]) (by rw [State.reopenedAt, h])
  · exact .keeps hf (by rw [State.reopenedAt, h]) (by rw [State.reopenedAt, h])

/-- Every operation does one of the three. -/
theorem State.Completes.numbers (h : s.Completes i t) : s.Numbers t i := by
  cases h with
  | start =>
    obtain ⟨hq, hn, -⟩ := s.start_registers _
    exact .keeps (congrArg framesOf (s.start_out _)) hq hn
  | eEdgeReal ha hl hend => exact hend.numbers.of_frames (by simp [State.sampledAtClk]) rfl rfl rfl
  | eProbeReal hend | opFinishReal hend => exact hend.numbers
  | eProbeEmpty | qRaceClock | qRaceChip | dProbeEmpty | opCommit =>
    exact .of_commit _ _ _ rfl rfl rfl
  | realEdge hd =>
    exact (State.reopenedAt_numbers { s with clk := _ } _ _).of_frames rfl rfl rfl rfl
  | opCloseAndOpen => exact s.reopenedAt_numbers _ _
  | qInitLow | qInitHigh => exact .begins (by simp) rfl rfl
  | qReassert => exact .begins (by simp) (by simp) rfl
  | _ => exact .keeps (by simp [State.sampledAtClk, State.markArrow]) rfl rfl

end

/-! ## The numbering -/

/-- One more frame that carries the next number, or 0 (43_cs_decoder R160). -/
theorem nextSeq_append {n q r : BitVec 64} {fs : List Frame} {f : Frame} (h : nextSeq n fs = some q)
    (hf : f.seq = some r) (hr : r = q ∨ r = 0#64) : nextSeq n (fs ++ [f]) = some (r + 1#64) := by
  induction fs generalizing n with
  | nil =>
    cases h
    simp [nextSeq, hf, hr]
  | cons g gs ih =>
    rw [nextSeq] at h
    rw [List.cons_append, nextSeq]
    cases hg : g.seq with
    | none => simp [hg] at h
    | some p =>
      simp only [hg] at h ⊢
      split at h
      · next hp => rw [if_pos hp, ih h]
      · cases h

theorem State.numbered_iff {s : State} : s.numbered = true ↔ (cfgCsEn s.cfg = true →
    ∃ q, nextSeq 0#64 (framesOf s.out) = some q ∧ (s.newAssert = false → s.seq = q)) := by
  unfold State.numbered
  cases cfgCsEn s.cfg <;> cases nextSeq 0#64 (framesOf s.out) <;> cases s.newAssert <;> simp

/-- What the statement asks of a step. -/
structure State.NumbersOn (s t : State) : Prop where
  numbered : t.numbered = true
  frame : cfgCsEn s.cfg = true → ∀ (f : Frame) (rest : List Frame), framesOf t.out = framesOf s.out ++ f :: rest →
    rest = [] ∧ f.seq = (if s.newAssert then some 0#64 else nextSeq 0#64 (framesOf s.out)) ∧ t.newAssert = false
  begins : s.newAssert = false → t.newAssert = true → s.phase ∈ [.qInit, .qReassert]

section
variable {s t : State}

theorem State.NumbersOn.of_no_frame (hn : t.numbered = true) (hf : (framesOf t.out).length ≤ (framesOf s.out).length)
    (hb : s.newAssert = false → t.newAssert = true → s.phase ∈ [.qInit, .qReassert]) : s.NumbersOn t where
  numbered := hn
  frame _ f rest he := by
    rw [he, List.length_append, List.length_cons] at hf
    omega
  begins := hb

/-- A step that leaves the frames, the configuration and both registers numbers on. -/
theorem State.NumbersOn.of_keeps (hn : s.numbered = true) (hf : framesOf t.out = framesOf s.out) (hcfg : t.cfg = s.cfg)
    (hq : t.seq = s.seq) (ha : t.newAssert = s.newAssert) : s.NumbersOn t := by
  refine .of_no_frame ?_ (hf ▸ Nat.le_refl _) fun h1 h2 => ?_
  · rw [State.numbered_iff] at hn ⊢
    rwa [hf, hcfg, hq, ha]
  · rw [ha, h1] at h2
    cases h2

/-- A completed operation that keeps the configuration numbers on. -/
theorem State.Numbers.numbersOn (h : s.Numbers t (fetch s)) (hseq : s.seqOk = true) (hn : s.numbered = true)
    (hcfg : t.cfg = s.cfg) : s.NumbersOn t := by
  cases h with
  | keeps hf hq ha => exact .of_keeps hn hf hcfg hq ha
  | begins hi hf ha =>
    refine .of_no_frame ?_ (hf ▸ Nat.le_refl _) fun _ _ => ?_
    · rw [State.numbered_iff] at hn ⊢
      intro hc
      obtain ⟨q, hq, -⟩ := hn (hcfg ▸ hc)
      exact ⟨q, hf ▸ hq, fun h => by rw [ha] at h; cases h⟩
    · simp only [List.mem_cons, List.not_mem_nil, or_false] at hi ⊢
      exact hi.imp (phase_of_fetch (p := .qInit)) (phase_of_fetch (p := .qReassert))
  | counts f hf hs hq ha =>
    cases hc : cfgCsEn s.cfg with
    | false =>
      rw [hc, if_neg Bool.false_ne_true] at ha
      refine ⟨State.numbered_iff.mpr fun h => ?_, fun h => ?_, fun h1 h2 => ?_⟩
      · rw [hcfg, hc] at h
        cases h
      · rw [hc] at h
        cases h
      · rw [ha, h1] at h2
        cases h2
    | true =>
      obtain ⟨q, hnext, hsq⟩ := State.numbered_iff.mp hn hc
      rw [hc, if_pos rfl] at hq ha
      rw [State.frameSeq, hc, if_pos rfl] at hs
      have hfresh : s.newAssert = true → s.seq = 0#64 := State.seqOk_iff.mp hseq
      have hnum : s.seq = q ∨ s.seq = 0#64 := by
        cases hna : s.newAssert with
        | true => exact .inr (hfresh hna)
        | false => exact .inl (hsq hna)
      refine ⟨State.numbered_iff.mpr fun _ => ⟨_, hf ▸ nextSeq_append hnext hs hnum, fun _ => hq⟩,
        fun _ g rest hg => ?_, fun _ h => by rw [ha] at h; cases h⟩
      rw [hf, List.append_cancel_left_eq, List.cons.injEq] at hg
      obtain ⟨rfl, rfl⟩ := hg
      refine ⟨rfl, ?_, ha⟩
      cases hna : s.newAssert with
      | true => rw [hs, hfresh hna, if_pos rfl]
      | false => rw [hs, hsq hna, if_neg Bool.false_ne_true, hnext]

/-- Where nothing has been emitted the frames are numbered, `SEQ` being 0. -/
theorem State.numbered_of_fresh (hout : t.out = []) (hq : t.seq = 0#64) : t.numbered = true :=
  State.numbered_iff.mpr fun _ => ⟨0#64, by rw [hout]; rfl, fun _ => hq⟩

end

/-- The block's turn numbers on: the start step from `IDLE` has emitted nothing, a hold, an end and a stop emit
nothing. -/
theorem State.Inv.blockStep_numbersOn {s t : State} (hi : s.Inv) (hn : s.numbered = true) (h : blockStep s = .next t) :
    s.NumbersOn t := by
  by_cases hidle : s.phase = .idle
  · rw [blockStep_idle hidle] at h
    cases h
    obtain ⟨hout, -, hseq, hnew, -⟩ := hi.idle_registers hidle
    obtain ⟨hq, ha, -⟩ := s.start_registers s.inputs.cfg
    have hkeep := s.start_out s.inputs.cfg
    refine .of_no_frame (State.numbered_of_fresh (hkeep.trans hout) (hq.trans hseq)) (by rw [hkeep]) fun _ ht => ?_
    rw [ha, hnew] at ht
    cases ht
  · have hcfg := (blockStep_keepsRun hidle h).cfg
    rcases exec_cases h with hc | rfl | rfl | ⟨c, -, rfl⟩
    · exact hc.numbers.numbersOn hi.seq hn hcfg
    · exact .of_keeps hn rfl rfl rfl rfl
    · exact .of_keeps hn rfl rfl rfl rfl
    · exact .of_keeps hn rfl rfl rfl rfl

theorem State.Moves.numbersOn {s t : State} {m : HostMove} (hn : s.numbered = true) (h : s.Moves m t) :
    s.NumbersOn t := by
  cases h with
  | newRun => exact .of_no_frame (State.numbered_of_fresh rfl rfl) (Nat.zero_le _) nofun
  | append | endCapture | cancel | present | none => exact .of_keeps hn rfl rfl rfl rfl

/-- Settles O39: a turn of the block and a move of the environment number on. -/
theorem framesAreNumbered : Obligations.FramesAreNumbered := by
  intro s t hi hn h
  have hon : ∀ ts, (s.setSchedule ts).NumbersOn t → s.NumbersOn t := fun ts ⟨h1, h2, h3⟩ => ⟨h1, h2, h3⟩
  have hst : s.NumbersOn t := by
    rcases step_cases h with ⟨u, rfl | ⟨rest, -, rfl⟩, hb⟩ | ⟨m, rest, -, rfl⟩
    · exact hi.blockStep_numbersOn hn hb
    · exact hon rest ((hi.setSchedule rest).blockStep_numbersOn hn hb)
    · exact hon rest (State.Moves.numbersOn (s := s.setSchedule rest) hn ((s.setSchedule rest).hostMove_moves m))
  exact ⟨hst.numbered, hst.frame, hst.begins⟩

end Sys2Proof.Machine
end

section
/-! SUPPORT. Runs over a complete capture: what such a run keeps, how its turns are taken, and the edges still
ahead of the clock cursor (20_memory R52 and R55, 60_exceptions R206). -/

namespace Sys2Proof.Machine

/-! ## Runs to the end -/

/-- From `s` some number of steps ends in `DONE` with the frames `fs`. -/
def State.Ends (s : State) (fs : List Frame) : Prop :=
  ∃ k t, core.run k s = .next t ∧ t.phase = .done ∧ framesOf t.out = fs

theorem State.Ends.of_step {s t : State} {fs : List Frame} (h : step s = .next t) (ht : t.Ends fs) : s.Ends fs := by
  obtain ⟨k, u, hk, hu⟩ := ht
  have hc : core.step s = .next t := h
  exact ⟨k + 1, u, by simpa only [Host.Core.run, hc] using hk, hu⟩

/-- A run over a complete capture of at most `10^15` samples, with the word `w`, the clock's trace `tr` and the lines
`ls` latched, and no turn listed. -/
structure State.StaticRun (w : BitVec 32) (tr : Trace) (ls : List Line) (s : State) : Prop where
  config : s.config = {}
  schedule : s.schedule = []
  ended : s.producer.ended = true
  small : s.producer.buffered.toNat ≤ 10 ^ 15
  memory : Memory.wf s = true
  cfg : s.cfg = w
  clk : s.clk.trace = tr
  fits : tr.fits s.producer.buffered = true
  lines : s.data.map (fun l => (l.cursor.trace, l.mask)) = ls.map fun l => (l.cursor.trace, l.mask)

/-- The word depends on the lines' traces and masks alone (40_word_sampler R101). -/
theorem wordAt_congr {ls ms : List Line} (h : ls.map (fun l => (l.cursor.trace, l.mask)) =
    ms.map fun l => (l.cursor.trace, l.mask)) (p : Pos) : wordAt ls p = wordAt ms p := by
  induction ls generalizing ms with
  | nil => cases ms with
    | nil => rfl
    | cons => cases h
  | cons l ls ih => cases ms with
    | nil => cases h
    | cons m ms =>
      simp only [List.map_cons, List.cons.injEq, Prod.mk.injEq] at h
      obtain ⟨⟨htr, hmask⟩, hrest⟩ := h
      rw [wordAt_cons, wordAt_cons, ih hrest, Line.bits, Line.bits, htr, hmask]

section
variable {w : BitVec 32} {tr : Trace} {ls : List Line} {s t : State} (h : s.StaticRun w tr ls)
include h

/-- The provisional end as the statements write it. -/
theorem State.StaticRun.provisional_end (t : Pos) :
    BitVec.ofNat 64 (t.toNat + estimateNat {} s.lastWKnown s.lastW - 1) = t + s.estimateWidth - 1#64 := by
  have hc : s.config.wf := h.config ▸ by decide
  have hpos := State.clamp_lt_estimateWidth hc
  have hest := State.estimateWidth_toNat hc
  rw [h.config] at hest
  rw [← hest]
  bv_omega

theorem State.StaticRun.wf : tr.wf = true := h.clk ▸ State.clk_wf_of_memory_wf h.memory

theorem State.StaticRun.edge_lt {e : Pos} (he : e ∈ tr.edges) : e < s.producer.buffered :=
  (Trace.fits_iff _ _).mp h.fits e he

theorem State.StaticRun.readable {e : Pos} (he : e ∈ tr.edges) : s.producer.readable e = true :=
  Producer.readable_of_lt (h.edge_lt he)

theorem State.StaticRun.keeps (hk : s.KeepsRun t) : t.StaticRun w tr ls where
  config := hk.config.trans h.config
  schedule := hk.schedule.trans h.schedule
  ended := hk.producer ▸ h.ended
  small := hk.producer ▸ h.small
  memory := by
    rw [Memory.wf, hk.inputs, hk.traces]
    exact h.memory
  cfg := hk.cfg.trans h.cfg
  clk := hk.clk.trans h.clk
  fits := hk.producer ▸ h.fits
  lines := hk.lines.trans h.lines

theorem State.StaticRun.step_eq : step s = blockStep s := by
  rw [step, h.schedule]

/-- A completed turn is one step of the run. -/
theorem State.StaticRun.ends_of_ok {fs : List Frame} (hp : s.phase ≠ .idle) (hr : s.turnRes = .ok t)
    (ht : t.StaticRun w tr ls → t.Ends fs) : s.Ends fs := by
  have hs : step s = .next t := by rw [h.step_eq, blockStep_eq_settle, hr]; rfl
  exact .of_step hs (ht (h.keeps ((State.turnRes_completes hr).keepsRun (fetch_not_starts hp))))

/-- A turn that waits ends the run, the capture being complete (60_exceptions R206). -/
theorem State.StaticRun.ends_of_wait (hr : s.turnRes = s.producer.wait) : s.Ends (framesOf s.out) := by
  have hs : step s = .next s.finish := by
    rw [h.step_eq, blockStep_eq_settle, hr, Producer.wait, if_pos h.ended]
    rfl
  exact .of_step hs ⟨0, s.finish, rfl, rfl, rfl⟩

/-- No provisional window of a capture this long passes `2^64` (93_implementation_defined I3). -/
theorem State.StaticRun.window_fits {p : Pos} (hp : p ∈ tr.edges) : p.toNat + s.estimateWidth.toNat < 2 ^ 64 := by
  have hlt := BitVec.lt_def.mp (h.edge_lt hp)
  have hsmall := h.small
  have hw := s.lastW.isLt
  rw [State.estimateWidth_toNat (h.config ▸ by decide), estimateNat, h.config]
  dsimp only
  split <;> omega

end

/-! ## The start -/

/-- The start step on a word that passes the checks begins such a run, every cursor at 0. -/
theorem State.StaticRun.of_start {s : State} {w : BitVec 32} {p : Phase} (hsched : s.schedule = [])
    (hconfig : s.config = {}) (hcfg : s.inputs.cfg = w) (hp : s.phase = .idle)
    (hcheck : startCheck s.config w s.inputs = none) (hfirst : cfgFirstPhase w = p) (hended : s.producer.ended = true)
    (husable : s.inputs.usable s.producer = true) (hsmall : s.producer.buffered.toNat ≤ 10 ^ 15) :
    step s = .next (s.start w) ∧ (s.start w).StaticRun w s.inputs.clk (mapLines 0 s.inputs.lines) ∧
      (s.start w).phase = p ∧ (s.start w).clk.pos = 0#64 ∧ (s.start w).data = mapLines 0 s.inputs.lines ∧
      (p = .dHead → (s.start w).pendValid = false) := by
  rw [Inputs.usable, hended, Bool.not_true, Bool.false_or, Bool.and_eq_true] at husable
  obtain ⟨hwf, hfits⟩ := husable
  have hstep : step s = .next (s.start w) := by
    rw [step, hsched, ← hcfg]
    exact blockStep_idle hp
  refine ⟨hstep, ?_, ?_⟩
  · have htraces := s.start_traces w
    obtain ⟨hc, hi, hpr, -, hs⟩ := s.start_environment w
    have hlatch : (s.start w).cfg = w ∧ (s.start w).clk.trace = s.inputs.clk ∧
        (s.start w).data = mapLines 0 s.inputs.lines := by
      rw [State.start_of_check_none hcheck]
      exact ⟨rfl, rfl, rfl⟩
    obtain ⟨hw, hclk, hdata⟩ := hlatch
    refine ⟨hc.trans hconfig, hs.trans hsched, hpr ▸ hended, hpr ▸ hsmall, ?_, hw, hclk, ?_, hdata ▸ rfl⟩
    · rw [Memory.wf, htraces, hi, hwf, Bool.and_self]
    · rw [hpr]
      exact List.all_eq_true.mp hfits _ List.mem_cons_self
  · rw [State.start_of_check_none hcheck, hfirst]
    exact ⟨rfl, rfl, rfl, fun hd => if_pos hd⟩

theorem linesBefore_mapLines (ts : List Trace) (p : Pos) : linesBefore (mapLines 0 ts) p = true := by
  rw [linesBefore_iff]
  intro l hl
  rw [mapLines_eq_mapIdx] at hl
  obtain ⟨k, hk, rfl⟩ := List.mem_mapIdx.mp hl
  exact BitVec.le_def.mpr (Nat.zero_le _)

/-! ## The edges ahead -/

theorem Trace.nextEdge_zero {tr : Trace} (hw : tr.wf = true) : tr.nextEdge 0#64 = tr.edges.head? := by
  have hpos := (tr.wf_iff.mp hw).1
  rw [Trace.nextEdge]
  cases he : tr.edges with
  | nil => rfl
  | cons e rest => rw [List.find?_cons_of_pos (by simpa using hpos e (by simp [he])), List.head?_cons]

section
variable {tr : Trace} (hw : tr.wf = true) {as rest : List Pos} {t : Pos} (he : tr.edges = as ++ t :: rest)
include hw he

/-- From an edge the next one is the first of those after it in the list (20_memory R55). -/
theorem Trace.nextEdge_of_split : tr.nextEdge t = rest.head? := by
  have hrise := (tr.wf_iff.mp hw).2
  rw [he] at hrise
  obtain ⟨-, htail, hbefore⟩ := List.pairwise_append.mp hrise
  have has : as.find? (fun e => t < e) = none :=
    List.find?_eq_none.mpr fun f hf => by simpa using BitVec.le_of_lt (hbefore f hf t List.mem_cons_self)
  rw [Trace.nextEdge, he, List.find?_append, has, Option.none_or, List.find?_cons_of_neg (by simp)]
  cases rest with
  | nil => rfl
  | cons u rest =>
    have htu : t < u := (List.pairwise_cons.mp htail).1 u List.mem_cons_self
    rw [List.find?_cons_of_pos (by simpa using htu), List.head?_cons]

omit hw in
theorem Trace.mem_of_split : t ∈ tr.edges := by
  rw [he]
  exact List.mem_append_right _ List.mem_cons_self

/-- Past the last edge no edge is ahead. -/
theorem Trace.nextEdge_past_last {p : Pos} (hrest : rest = []) (hp : t ≤ p) : tr.nextEdge p = none := by
  have hnone := Trace.nextEdge_of_split hw he
  rw [hrest] at hnone
  exact Trace.nextEdge_none.mpr fun e hm => BitVec.le_trans (Trace.nextEdge_none.mp hnone e hm) hp

end

end Sys2Proof.Machine
end

section
/-! SUPPORT. A dual-edge run over a complete capture (44_dual_edge_decoder R171 to R177). -/

namespace Sys2Proof.Machine

/-- In `D_HEAD` the frame of the edge `t` the clock stands on is pending (44_dual_edge_decoder R173). -/
structure State.OpenAt (ls : List Line) (t : Pos) (s : State) : Prop where
  phase : s.phase = .dHead
  clk : s.clk.pos = t
  valid : s.pendValid = true
  start : s.pendStart = t
  value : s.pendVal = wordAt ls t
  lines : linesBefore s.data t = true

/-- A commit, the clock's move and `PHASE` are different registers. -/
theorem State.closePending_setClk_setPhase (s : State) (c : Cursor) (p : Phase) (e : Pos) :
    ({ s with clk := c, phase := p } : State).closePending e = { s.closePending e with clk := c, phase := p } := by
  unfold State.closePending
  cases hv : s.pendValid <;> simp [hv, State.commit_eq, State.frameSeq]

theorem dualFrames_length (c : Config) (ls : List Line) (known : Bool) (w : Pos) (es : List Pos) :
    (dualFrames c ls known w es).length = es.length := by
  induction es generalizing known w with
  | nil => rfl
  | cons t es ih =>
    cases es with
    | nil => rfl
    | cons u es => rw [dualFrames, List.length_cons, ih, List.length_cons (a := t)]

section
variable {tr : Trace} {ls : List Line} {s : State} (h : s.StaticRun 2#32 tr ls)
include h

/-- With nothing pending and no edge ahead, `D_HEAD` and `D_ADVANCE` end the run. -/
theorem State.StaticRun.dual_ends_idle (hp : s.phase = .dHead) (hv : s.pendValid = false)
    (hn : tr.nextEdge s.clk.pos = none) : s.Ends (framesOf s.out) := by
  refine h.ends_of_ok (t := { s with phase := .dAdvance }) (by rw [hp]; exact nofun) ?_ fun h1 => h1.ends_of_wait ?_
  · rw [State.turnRes, hp]
    exact congrArg Res.ok (State.dHead_advance (.inl hv))
  · refine State.toRealEdge_waits (s := { s with phase := .dAdvance }) ?_
    change s.producer.known (s.clk.trace.nextEdge s.clk.pos) = false
    rw [h.clk, hn]
    rfl

/-- With no edge ahead the pending frame gets its provisional end (44_dual_edge_decoder R174). -/
theorem State.StaticRun.dual_ends_last {t : Pos} {as : List Pos} (ho : s.OpenAt ls t) (he : tr.edges = as ++ [t]) :
    s.Ends (framesOf s.out ++ dualFrames {} ls s.lastWKnown s.lastW [t]) := by
  obtain ⟨hp, hclk, hv, hs, hval, hl⟩ := ho
  have hm : t ∈ tr.edges := Trace.mem_of_split he
  have hnone : ∀ p, t ≤ p → tr.nextEdge p = none := fun p => Trace.nextEdge_past_last h.wf he rfl
  have hf := h.window_fits hm
  have hlast := h.provisional_end t
  have hfar : t ≤ t + s.estimateWidth := by bv_omega
  refine h.ends_of_ok (t := { s with estLatch := s.estimateWidth, phase := .dProbe }) (by rw [hp]; exact nofun) ?_
    fun h1 => ?_
  · rw [State.turnRes, hp]
    refine congrArg Res.ok (State.dHead_probe hv ?_)
    rw [h.clk, hclk, hnone t (BitVec.le_refl _)]
    rfl
  · have hprobe := State.dProbe_provisional (s := { s with estLatch := s.estimateWidth, phase := .dProbe })
      (by dsimp only; rw [hclk]; exact hf) (.inl h.ended)
      (by dsimp only; rw [h.clk, hclk, hnone t (BitVec.le_refl _)]; exact nofun)
    refine h1.ends_of_ok nofun hprobe fun h2 => ?_
    have hend := h2.dual_ends_idle rfl rfl (by dsimp only; rw [hclk]; exact hnone _ hfar)
    have hcs : cfgCsEn s.cfg = false := h.cfg ▸ rfl
    simpa [dualFrames, hs, hval, hclk, State.frameSeq, hcs, hlast] using hend

/-- `D_HEAD` and `D_ADVANCE` go on to the next edge, close what is pending before it and open there. -/
theorem State.StaticRun.dual_ends_next {e : Pos} {fs : List Frame} (hp : s.phase = .dHead)
    (hn : tr.nextEdge s.clk.pos = some e) (hl : linesBefore s.data e = true)
    (hends : ∀ t : State, t.StaticRun 2#32 tr ls → t.OpenAt ls e →
      framesOf t.out = framesOf (s.closePending e).out → t.lastW = (s.closePending e).lastW →
      t.lastWKnown = (s.closePending e).lastWKnown → t.Ends fs) : s.Ends fs := by
  have hb : e < s.producer.buffered := h.edge_lt (Trace.nextEdge_some hn).1
  have hn : s.clk.trace.nextEdge s.clk.pos = some e := h.clk ▸ hn
  refine h.ends_of_ok (t := { s with phase := .dAdvance }) (by rw [hp]; exact nofun) ?_ fun h1 => ?_
  · rw [State.turnRes, hp]
    exact congrArg Res.ok (State.dHead_advance (.inr (Producer.known_iff.mpr ⟨e, hn, hb⟩)))
  · refine h1.ends_of_ok nofun (State.toRealEdge_completes (s := { s with phase := .dAdvance }) hn hb hl) fun h2 => ?_
    have hclose := s.closePending_setClk_setPhase { s.clk with pos := e } .dAdvance e
    have hcursors := State.reopenedAt_cursors { s with phase := .dAdvance, clk := { s.clk with pos := e } } e
      (s.clk.trace.level e)
    refine hends _ h2 ⟨rfl, by rw [hcursors.1], rfl, rfl, wordAt_congr h.lines e, ?_⟩ ?_ ?_ ?_
    · exact linesBefore_linesAt _ (BitVec.le_refl e)
    · have hf := congrArg framesOf (congrArg State.out hclose)
      exact (State.reopenedAt_frames _ _ _).trans hf
    · have hw := congrArg State.lastW hclose
      exact hw
    · have hk := congrArg State.lastWKnown hclose
      exact hk

/-- From the open frame of an edge to the end of the run. -/
theorem State.StaticRun.dual_ends {t : Pos} {as rest : List Pos} (ho : s.OpenAt ls t)
    (he : tr.edges = as ++ t :: rest) :
    s.Ends (framesOf s.out ++ dualFrames {} ls s.lastWKnown s.lastW (t :: rest)) := by
  induction rest generalizing s t as with
  | nil => exact h.dual_ends_last ho he
  | cons e rest ih =>
    obtain ⟨hp, hclk, hv, hs, hval, hl⟩ := ho
    have hn : tr.nextEdge t = some e := Trace.nextEdge_of_split h.wf he
    have hle : t ≤ e := BitVec.le_of_lt (Trace.nextEdge_some hn).2
    have hclose : s.closePending e = s.commit (wordAt ls t) t (e - 1#64) := by
      rw [State.closePending, hv, if_pos rfl, hval, hs]
    have hcs : cfgCsEn s.cfg = false := h.cfg ▸ rfl
    refine h.dual_ends_next hp (hclk ▸ hn) (linesBefore_mono hl hle) fun u hu ho hf hw hk => ?_
    have hend := ih hu ho (as := as ++ [t]) (by simpa using he)
    rw [hf, hw, hk, hclose] at hend
    simpa [dualFrames, State.frameSeq, hcs] using hend

end

/-- Settles O52: the start enters `D_HEAD` with nothing pending, and then each edge closes the frame before it. -/
theorem dualStaticRunFrames : Obligations.DualStaticRunFrames := by
  intro s hp hsched hconfig hcfg hcs h1 h16 hended husable hsmall hknown hout
  have hcheck : startCheck s.config 2#32 s.inputs = none :=
    startCheck_accepted (by decide) (by decide) (by decide) h1 (by rw [hconfig]; exact h16) (by simp [hcs])
  obtain ⟨hstep, hrun, hphase, hclk, hdata, hpend⟩ :=
    State.StaticRun.of_start hsched hconfig hcfg hp hcheck rfl hended husable hsmall
  obtain ⟨-, -, hw, hk, -⟩ := s.start_registers 2#32
  have hframes : framesOf (s.start 2#32).out = [] := by rw [s.start_out, hout]; rfl
  have hclose : ∀ e, (s.start 2#32).closePending e = s.start 2#32 := fun e => by
    rw [State.closePending, hpend rfl, if_neg Bool.false_ne_true]
  have hends : s.Ends (dualFrames {} (mapLines 0 s.inputs.lines) false s.lastW s.inputs.clk.edges) := by
    refine .of_step hstep ?_
    cases hes : s.inputs.clk.edges with
    | nil =>
      have hend := hrun.dual_ends_idle hphase (hpend rfl) (Trace.nextEdge_none.mpr (by simp [hes]))
      rwa [hframes] at hend
    | cons e rest =>
      have hn : s.inputs.clk.nextEdge 0#64 = some e := by rw [Trace.nextEdge_zero hrun.wf, hes, List.head?_cons]
      refine hrun.dual_ends_next hphase (hclk ▸ hn) (hdata ▸ linesBefore_mapLines _ e) fun u hu ho hf hw' hk' => ?_
      have hend := hu.dual_ends ho (as := []) hes
      rwa [hf, hw', hk', hclose, hframes, hw, hk, hknown] at hend
  obtain ⟨k, t, hrunk, hdone, hf⟩ := hends
  rw [hconfig]
  exact ⟨k, t, hrunk, hdone, hf, by rw [hf, dualFrames_length]⟩

end Sys2Proof.Machine
end

section
/-! SUPPORT. A single-polarity run over a complete capture (42_edge_decoder R131 to R139). -/

namespace Sys2Proof.Machine

/-! ## The edges of one polarity -/

/-- The edges from the first active one on, which is the second where the initial level is the active one. -/
def Trace.fromActive (t : Trace) (a : Level) : List Pos := if t.initial = a then t.edges.drop 1 else t.edges

section
variable {tr : Trace} (hw : tr.wf = true) {a : Level}
include hw

/-- From an active edge, the next active edge is the second one ahead (42_edge_decoder R133). -/
theorem Trace.nextActive_of_active {p : Pos} (ha : tr.level p = a) :
    tr.nextActive a p = (tr.nextEdge p).bind tr.nextEdge := by
  rw [Trace.nextActive_eq hw, if_pos ha]

/-- The next edge after an active one is inactive. -/
theorem Trace.level_after_active {p e : Pos} (ha : tr.level p = a) (he : tr.nextEdge p = some e) :
    tr.level e = !a := by
  rw [Trace.level_nextEdge hw he, ha]

theorem Trace.level_zero : tr.level 0#64 = tr.initial := by
  have hpos := (tr.wf_iff.mp hw).1
  have hcount : tr.edges.countP (fun e => e ≤ 0#64) = 0 :=
    List.countP_eq_zero.mpr fun e he => by simpa using BitVec.not_le.mpr (hpos e he)
  rw [Trace.level, hcount]
  simp

/-- The seek from position 0 goes to the first of them. -/
theorem Trace.nextActive_zero : tr.nextActive a 0#64 = (tr.fromActive a).head? := by
  rw [Trace.nextActive_eq hw, Trace.level_zero hw, Trace.nextEdge_zero hw, Trace.fromActive]
  split
  · cases he : tr.edges with
    | nil => rfl
    | cons e rest => exact Trace.nextEdge_of_split hw (as := []) he
  · rfl

/-- What is left out before them is at most one edge, and it is not active. -/
theorem Trace.fromActive_split : ∃ as, tr.edges = as ++ tr.fromActive a ∧ ∀ e ∈ as, tr.level e ≠ a := by
  unfold Trace.fromActive
  split
  · next hinit =>
    cases he : tr.edges with
    | nil => exact ⟨[], rfl, by simp⟩
    | cons e rest =>
      have hn : tr.nextEdge 0#64 = some e := by rw [Trace.nextEdge_zero hw, he, List.head?_cons]
      have hlevel := Trace.level_after_active hw ((Trace.level_zero hw).trans hinit) hn
      exact ⟨[e], rfl, by simp [hlevel]⟩
  · exact ⟨[], rfl, by simp⟩

end

/-! ## The frames of the statement -/

section
variable {c : Config} {ls : List Line}

theorem edgeFrames_head? (known : Bool) (w : Pos) (t : Pos) (rest : List Pos) :
    (edgeFrames c ls known w (t :: rest)).head?.map (fun f => f.startPos) = some t := by
  match rest with
  | [] | [_] | _ :: _ :: _ => rfl

/-- Each frame ends one sample before the next one starts (42_edge_decoder R139). -/
theorem edgeFrames_contiguous (known : Bool) (w : Pos) :
    ∀ es, (edgeFrames c ls known w es).IsChain (fun f g => f.endPos + 1#64 = g.startPos)
  | [] | [_] | [_, _] => by simp [edgeFrames]
  | t :: _ :: u :: rest => by
    refine List.isChain_cons.mpr ⟨fun g hg => ?_, edgeFrames_contiguous true _ (u :: rest)⟩
    have hu := edgeFrames_head? (c := c) (ls := ls) true (frameWidth t (u - 1#64)) u rest
    rw [Option.mem_def.mp hg, Option.map_some, Option.some.injEq] at hu
    rw [hu]
    exact BitVec.sub_add_cancel _ _

/-- The frames start at the active edges, every second one from an active edge on (42_edge_decoder R138). -/
theorem edgeFrames_starts {tr : Trace} (hw : tr.wf = true) {a : Level} (known : Bool) (w : Pos) :
    ∀ {as es : List Pos}, tr.edges = as ++ es → (∀ t ∈ es.head?, tr.level t = a) →
      (edgeFrames c ls known w es).map (fun f => f.startPos) = es.filter (fun e => tr.level e == a)
  | _, [], _, _ => rfl
  | _, [t], _, ha => by simp [edgeFrames, ha t rfl]
  | _, [t, i], he, ha => by
    have hi := Trace.level_after_active hw (ha t rfl) (Trace.nextEdge_of_split hw he)
    simp [edgeFrames, ha t rfl, hi]
  | as, t :: i :: u :: rest, he, ha => by
    have hi := Trace.level_after_active hw (ha t rfl) (Trace.nextEdge_of_split hw he)
    have he' : tr.edges = (as ++ [t]) ++ i :: u :: rest := by simpa using he
    have hu : tr.level u = a := by
      rw [Trace.level_nextEdge hw (Trace.nextEdge_of_split hw he'), hi, Bool.not_not]
    have ih := edgeFrames_starts hw (a := a) true (frameWidth t (u - 1#64)) (as := as ++ [t, i]) (es := u :: rest)
      (by simpa using he) (by simpa using hu)
    simp [edgeFrames, ha t rfl, hi, ih]

end

/-! ## The run -/

theorem framesOf_cons_marker (m : Marker) (rs : List Record) : framesOf (.marker m :: rs) = framesOf rs := rfl

/-- The clock stands on the active edge `t`, and no line is past it (42_edge_decoder R134). -/
structure State.OnEdge (a : Level) (t : Pos) (s : State) : Prop where
  phase : s.phase = .eEdge
  clk : s.clk.pos = t
  active : s.clk.trace.level t = a
  lines : linesBefore s.data t = true

section
variable {w : BitVec 32} {tr : Trace} {ls : List Line} {s : State} (h : s.StaticRun w tr ls)
include h

/-- The sample at the clock and the frame's end add the frame, which carries no index without chip-select gating. -/
theorem State.StaticRun.sampled_frames (hcs : cfgCsEn w = false) (l : Level) (v : Word) (p e : Pos) (ph : Phase) :
    framesOf ((s.sampledAtClk l).endFrameAt v p e ph).out =
      framesOf s.out ++ [{ value := v, startPos := p, endPos := e - 1#64, seq := none }] := by
  have hcs : cfgCsEn s.cfg = false := h.cfg ▸ hcs
  simp [State.endFrameAt, State.sampledAtClk, State.frameSeq, hcs, framesOf_cons_marker]

variable {a : Level} (ha : cfgAct w = some a)
include ha

/-- With no active edge ahead the seek ends the run (42_edge_decoder R131, 60_exceptions R206). -/
theorem State.StaticRun.edge_ends_seek (hp : s.phase = .eSeek) (hn : tr.nextActive a s.clk.pos = none) :
    s.Ends (framesOf s.out) := by
  refine h.ends_of_wait ?_
  rw [State.turnRes, hp]
  refine State.eSeek_waits h.memory (h.cfg ▸ ha) ?_
  rw [h.clk, hn]
  rfl

variable (hcs : cfgCsEn w = false) {t : Pos} {as : List Pos} (ho : s.OnEdge a t)
include hcs ho

/-- The last edge, active: its frame gets the provisional end (42_edge_decoder R135, R136). -/
theorem State.StaticRun.edge_ends_last (he : tr.edges = as ++ [t]) :
    s.Ends (framesOf s.out ++ edgeFrames {} ls s.lastWKnown s.lastW [t]) := by
  obtain ⟨hp, hclk, hlevel, hl⟩ := ho
  have hm : t ∈ tr.edges := Trace.mem_of_split he
  have hnone : tr.nextEdge t = none := Trace.nextEdge_of_split h.wf he
  have hf := h.window_fits hm
  have hact : cfgAct s.cfg = some a := h.cfg ▸ ha
  have hcs : cfgCsEn s.cfg = false := h.cfg ▸ hcs
  have hedge := State.eEdge_last hact (hclk ▸ hl) (hclk ▸ h.readable hm) (by rw [h.clk, hclk, hnone]; rfl)
  refine h.ends_of_ok (by rw [hp]; exact nofun) (by rw [State.turnRes, hp]; exact hedge) fun h1 => ?_
  have hprobe := State.eProbe_provisional (s := { s.sampledAtClk a with
      sLatch := s.clk.pos, wLatch := wordAt s.data s.clk.pos, estLatch := s.estimateWidth, phase := .eProbe })
    (State.clamp_lt_estimateWidth (h.config ▸ by decide)) rfl (by rw [← hclk] at hf; exact hf) (.inl h.ended)
    (by simp [State.sampledAtClk, h.clk, hclk, hnone])
  refine h1.ends_of_ok nofun hprobe fun h2 => ?_
  have hend := h2.edge_ends_seek ha rfl
    (by simp [State.sampledAtClk, hclk, Trace.nextActive_of_active h.wf (h.clk ▸ hlevel), hnone])
  simpa [edgeFrames, State.sampledAtClk, State.frameSeq, hcs, hclk, h.provisional_end t, wordAt_congr h.lines t,
    framesOf_cons_marker] using hend

omit hcs in
/-- The turn of an active edge with an edge ahead is the end of its frame (42_edge_decoder R132, R133). -/
theorem State.StaticRun.edge_ends_frame {i : Pos} {v : State} {fs : List Frame} (hm : t ∈ tr.edges)
    (hi : tr.nextEdge t = some i)
    (hfin : (s.sampledAtClk a).finishReal (wordAt s.data s.clk.pos) s.clk.pos = .ok v)
    (hends : v.StaticRun w tr ls → v.Ends fs) : s.Ends fs := by
  obtain ⟨hp, hclk, -, hl⟩ := ho
  have hk : s.producer.known (s.clk.trace.nextEdge s.clk.pos) = true := by
    rw [h.clk, hclk]
    exact Producer.known_iff.mpr ⟨i, hi, h.edge_lt (Trace.nextEdge_some hi).1⟩
  have hedge := State.eEdge_more (h.cfg ▸ ha) (hclk ▸ hl) (hclk ▸ h.readable hm) hk
  exact h.ends_of_ok (by rw [hp]; exact nofun) (by rw [State.turnRes, hp]; exact hedge.trans hfin) hends

/-- An active edge with only its inactive edge ahead: the frame ends there (42_edge_decoder R133). -/
theorem State.StaticRun.edge_ends_inactive {i : Pos} (he : tr.edges = as ++ [t, i]) :
    s.Ends (framesOf s.out ++ edgeFrames {} ls s.lastWKnown s.lastW [t, i]) := by
  have hm : t ∈ tr.edges := Trace.mem_of_split he
  have hi : tr.nextEdge t = some i := Trace.nextEdge_of_split h.wf he
  have hnone : tr.nextEdge i = none := Trace.nextEdge_of_split h.wf (as := as ++ [t]) (by simpa using he)
  have hlevel := Trace.level_after_active h.wf (h.clk ▸ ho.active) hi
  refine h.edge_ends_frame ha ho hm hi (State.finishReal_inactive (s := s.sampledAtClk a) (i := i) ?_ ?_ ?_) fun h1 => ?_
  · change s.clk.trace.nextEdge s.clk.pos = some i
    rw [h.clk, ho.clk, hi]
  · exact h.edge_lt (Trace.nextEdge_some hi).1
  · change s.producer.known (s.clk.trace.nextEdge i) = false
    rw [h.clk, hnone]
    rfl
  · have hend := h1.edge_ends_seek ha rfl (by
      rw [State.endFrameAt_clk, Trace.nextActive_eq h.wf, hlevel]
      simpa using hnone)
    rw [h.sampled_frames hcs] at hend
    rw [edgeFrames, ← ho.clk, ← wordAt_congr h.lines]
    exact hend

/-- An active edge with the next active edge ahead: the frame ends there, and the next one begins. -/
theorem State.StaticRun.edge_ends_active {i u : Pos} {rest : List Pos} {fs : List Frame}
    (he : tr.edges = as ++ t :: i :: u :: rest)
    (hends : ∀ v : State, v.StaticRun w tr ls → v.OnEdge a u →
      framesOf v.out = framesOf s.out ++ [{ value := wordAt ls t, startPos := t, endPos := u - 1#64, seq := none }] →
      v.lastWKnown = true → v.lastW = frameWidth t (u - 1#64) → v.Ends fs) : s.Ends fs := by
  have hm : t ∈ tr.edges := Trace.mem_of_split he
  have hi : tr.nextEdge t = some i := Trace.nextEdge_of_split h.wf he
  have hu : tr.nextEdge i = some u := Trace.nextEdge_of_split h.wf (as := as ++ [t]) (by simpa using he)
  have hlevel := Trace.level_after_active h.wf (h.clk ▸ ho.active) hi
  have htu : t ≤ u := BitVec.le_of_lt (BitVec.lt_trans (Trace.nextEdge_some hi).2 (Trace.nextEdge_some hu).2)
  refine h.edge_ends_frame ha ho hm hi
    (State.finishReal_active (s := s.sampledAtClk a) (i := i) (a := u) ?_ ?_ ?_ ?_) fun h1 =>
    hends _ h1 ⟨rfl, ?_, ?_, ?_⟩ ?_ ?_ ?_
  · change s.clk.trace.nextEdge s.clk.pos = some i
    rw [h.clk, ho.clk, hi]
  · exact h.edge_lt (Trace.nextEdge_some hi).1
  · change s.clk.trace.nextEdge i = some u
    rw [h.clk, hu]
  · exact h.edge_lt (Trace.nextEdge_some hu).1
  · rw [State.endFrameAt_clk]
  · rw [h1.clk, Trace.level_nextEdge h.wf hu, hlevel, Bool.not_not]
  · simpa [State.endFrameAt, State.sampledAtClk, ho.clk] using linesBefore_linesAt s.data htu
  · rw [h.sampled_frames hcs, ho.clk, wordAt_congr h.lines]
  · simp [State.endFrameAt]
  · simp [State.endFrameAt, ho.clk]

end

/-- From an active edge to the end of the run. -/
theorem State.StaticRun.edge_ends {w : BitVec 32} {tr : Trace} {ls : List Line} {a : Level} (ha : cfgAct w = some a)
    (hcs : cfgCsEn w = false) : ∀ {rest as : List Pos} {t : Pos} {s : State}, s.StaticRun w tr ls → s.OnEdge a t →
      tr.edges = as ++ t :: rest → s.Ends (framesOf s.out ++ edgeFrames {} ls s.lastWKnown s.lastW (t :: rest))
  | [], _, _, _, h, ho, he => h.edge_ends_last ha hcs ho he
  | [_], _, _, _, h, ho, he => h.edge_ends_inactive ha hcs ho he
  | i :: u :: rest, as, t, s, h, ho, he => by
    refine h.edge_ends_active ha hcs ho he fun v hv hov hf hk hw => ?_
    have hend := edge_ends ha hcs (as := as ++ [t, i]) hv hov (by simpa using he)
    rw [hf, hk, hw] at hend
    simpa [edgeFrames] using hend

/-- Settles O53: the start seeks the first active edge, and from there every second edge ends a frame. -/
theorem edgeStaticRunFrames : Obligations.EdgeStaticRunFrames := by
  intro s a hp hsched hconfig hcfg hcs h1 h16 hended husable hsmall hknown hout
  obtain ⟨w, hw, ha, hcsw, hfirst, hcheck⟩ : ∃ w, s.inputs.cfg = w ∧ cfgAct w = some a ∧ cfgCsEn w = false ∧
      cfgFirstPhase w = .eSeek ∧ startCheck s.config w s.inputs = none := by
    have hmax : s.inputs.lines.length ≤ s.config.maxData := by rw [hconfig]; exact h16
    rcases hcfg with ⟨hc, rfl⟩ | ⟨hc, rfl⟩
    · exact ⟨0#32, hc, rfl, rfl, rfl,
        startCheck_accepted (by decide) (by decide) (by decide) h1 hmax (by simp [hcs])⟩
    · exact ⟨1#32, hc, rfl, rfl, rfl,
        startCheck_accepted (by decide) (by decide) (by decide) h1 hmax (by simp [hcs])⟩
  obtain ⟨hstep, hrun, hphase, hclk, hdata, -⟩ :=
    State.StaticRun.of_start hsched hconfig hw hp hcheck hfirst hended husable hsmall
  obtain ⟨-, -, hlw, hlk, -⟩ := s.start_registers w
  have hframes : framesOf (s.start w).out = [] := by rw [s.start_out, hout]; rfl
  have hfirst : s.inputs.clk.nextActive a 0#64 = (s.inputs.clk.fromActive a).head? := Trace.nextActive_zero hrun.wf
  obtain ⟨as, has, hpass⟩ := Trace.fromActive_split hrun.wf (a := a)
  change ∃ k t, core.run k s = .next t ∧ t.phase = .done ∧
    framesOf t.out = edgeFrames s.config (mapLines 0 s.inputs.lines) false s.lastW (s.inputs.clk.fromActive a) ∧ _
  generalize s.inputs.clk.fromActive a = es at hfirst has ⊢
  have hhead : ∀ t ∈ es.head?, s.inputs.clk.level t = a := fun t ht =>
    (Trace.nextActive_some (hfirst.trans ht)).2.2
  have hends : s.Ends (edgeFrames {} (mapLines 0 s.inputs.lines) false s.lastW es) := by
    refine .of_step hstep ?_
    cases hes : es with
    | nil =>
      have hend := hrun.edge_ends_seek ha hphase (by rw [hclk, hfirst, hes]; rfl)
      rwa [hframes] at hend
    | cons e rest =>
      rw [hes, List.head?_cons] at hfirst
      obtain ⟨hm, hlt, hlevel⟩ := Trace.nextActive_some hfirst
      have hseek := State.eSeek_buffered (s := s.start w) hrun.memory (hrun.cfg ▸ ha)
        (by rw [hrun.clk, hclk]; exact hfirst) (hrun.edge_lt hm)
      refine hrun.ends_of_ok (by rw [hphase]; exact nofun) (by rw [State.turnRes, hphase]; exact hseek) fun hu => ?_
      have hend := hu.edge_ends ha hcsw ⟨rfl, rfl, by rw [hu.clk]; exact hlevel, hdata ▸ linesBefore_mapLines _ e⟩
        (has.trans (by rw [hes]))
      simpa [hframes, hlw, hlk, hknown] using hend
  obtain ⟨k, t, hrunk, hdone, hf⟩ := hends
  rw [hconfig]
  refine ⟨k, t, hrunk, hdone, hf, ?_, fun j f g hj hg => ?_⟩
  · have hskip : as.filter (fun e => s.inputs.clk.level e == a) = [] :=
      List.filter_eq_nil_iff.mpr (by simpa using hpass)
    rw [hf, edgeFrames_starts hrun.wf false _ has hhead, has, List.filter_append, hskip, List.nil_append]
  · have hchain := hf ▸ edgeFrames_contiguous (c := {}) (ls := mapLines 0 s.inputs.lines) false s.lastW es
    obtain ⟨hj1, rfl⟩ := List.getElem?_eq_some_iff.mp hj
    obtain ⟨hj2, rfl⟩ := List.getElem?_eq_some_iff.mp hg
    exact List.isChain_iff_getElem.mp hchain j hj2

end Sys2Proof.Machine
end
